-- ==== Sys2Proof/Word.lean ====
section
/-! DEFINITION. The word types of the T48 (R6): bytes, 16-bit register words, 32-bit memory words. -/
namespace Sys2Proof

/-- A byte. -/
abbrev Byte := BitVec 8
/-- A register or window word (R258). -/
abbrev W16 := BitVec 16
/-- A memory word of Carud (R206). -/
abbrev W32 := BitVec 32

end Sys2Proof
end

