-- ==== Sys2Proof/Syntax.lean ====
section
/-! DEFINITION. The commands of the T48: one constructor of Instr per row of spec/opcode_table.json, in the table's order.
Operands are what the outside supplies: written values, measured charges and voltages, elapsed times, received parcels. -/
namespace Sys2Proof

/-- R8, R169, R208: the two sides that reach registers. -/
inductive Side where
  | host | carud
  deriving DecidableEq, Repr

/-- A register word by its place: host offset (R266), or word address in CONFIG page 0, AUX page 0 or LOG page 0 (R274). -/
inductive RegTarget where
  | host (off : BitVec 6)
  | config (adr : W16)
  | aux (adr : W16)
  | log (adr : W16)
  deriving DecidableEq, Repr

/-- The electrodes and amplifiers of one code group or self step (R44, R54, R56): VHV in millivolts; per RX column, the coupling of
each slot (of the electrode, in a self step) in attofarads; `extra j r` any further charge of step j in column r in zeptocoulombs;
the thousandths of an edge's charge that arrive in the recycling interval; per RX column, the amplifier's untrimmed bushel of one code
unit in zeptocoulombs (nominal where the list does not reach). -/
structure GroupInput where
  vhv   : Nat
  coup  : List (List Nat)
  extra : List (List Int)
  early : Nat
  unit  : List Nat
  deriving DecidableEq, Repr

/-- One error on the decoder's guarded path (R128, R370): the sum S of slot `slot`, column `col` is off by `off`. -/
structure PathError where
  slot : Nat
  col  : Nat
  off  : Int
  deriving DecidableEq, Repr

/-- The two readings of one amplifier in a calibration step (R60). -/
structure CalReading where
  m0   : Int
  m1   : Int
  sat0 : Bool
  sat1 : Bool
  deriving DecidableEq, Repr

/-- What an integrity test measures at one pin (R68): its capacitance and its coupling to the driven neighbours, in fF. -/
structure ElMeas where
  cap  : Nat
  sat  : Bool
  coup : Nat
  deriving DecidableEq, Repr

/-- The inputs of one auxiliary conversion (R157), in microvolts: both at the sample, and the lowest and the highest that either took during
the track part and the slot. -/
structure AuxInputs where
  vp   : Int
  vn   : Int
  lo   : Int
  hi   : Int
  deriving DecidableEq, Repr

/-- What one auxiliary conversion sees (R157): its inputs, and the reference as sensed at EXSj, in microvolts. -/
structure AuxSample extends AuxInputs where
  vref : Nat
  deriving DecidableEq, Repr

/-- The voltage of a lamp's sink during an on-time (R202): below 0.2 V, between, or above 6 V. -/
inductive LampLevel where
  | low | mid | high
  deriving DecidableEq, Repr

/-- What a lamp's sink showed during an on-time (R202): whether it reached its current, and its voltage. -/
structure LampOn where
  reached : Bool
  level   : LampLevel
  deriving DecidableEq, Repr

/-- What a lamp's sink shows at the start of its PWM period (R200 to R203, R391): whether LD read below 1 V in the off-time just past,
and whether the sink is below 135 degrees. -/
structure LampStart where
  below  : Bool
  cooled : Bool
  deriving DecidableEq, Repr

/-- The current limit of a shield driver at the end of an edge (R52): the driver, and for how long the limit was active. -/
structure ShdLimit where
  unit : Fin 4
  ns   : Nat
  deriving DecidableEq, Repr

/-- The current limit of an excitation output (R159): the output, and whether it is reached or no longer. -/
structure ExcLimit where
  out : Fin 4
  on  : Bool
  deriving DecidableEq, Repr

/-- What an excitation's sense line shows (R159): the output, and the voltage in microvolts. -/
structure ExcSense where
  out : Fin 4
  uv  : Nat
  deriving DecidableEq, Repr

/-- A parcel (R287, R307). -/
structure Parcel where
  typ     : BitVec 6
  pri     : BitVec 2
  src     : BitVec 9
  dst     : BitVec 9
  epoch   : Byte
  linkseq : Byte
  len     : Byte
  frameq  : BitVec 14
  payload : List Byte
  deriving DecidableEq, Repr

/-- A parcel as a port receives it: the CRC bytes as they stand on the line (masked, R307), and what the line showed (R308). -/
structure RxParcel where
  p    : Parcel
  crc  : W32
  viol : Bool
  deriving DecidableEq, Repr

/-- The opcode word's fields beside OP (R214). -/
structure IHdr where
  g  : BitVec 4
  sz : BitVec 2
  u  : Bool
  x  : W16
  deriving DecidableEq, Repr

/-- GATH's opcode word, and the element after which other commands stand before the gather goes on (R257); none where none do. -/
structure GathHdr where
  hdr : IHdr
  cut : Option (Fin 16)
  deriving DecidableEq, Repr

/-- Operand specifiers (R216); `rsvd` is MODE 10 to 15. -/
inductive Opd where
  | imm  (v : BitVec 24)
  | immx (v : W32)
  | dir  (a : BitVec 24)
  | ind  (n : Fin 16) (d : BitVec 24)
  | idx  (n m : Fin 16) (s : BitVec 2) (d : BitVec 18)
  | pinc (n : Fin 16) (k : W16)
  | pdec (n : Fin 16) (k : W16)
  | circ (n : Fin 16) (c : Fin 4) (k : W16)
  | node (n : Fin 16) (f : Fin 4) (adv : Bool) (dt dr : Byte)
  | areg (n : Fin 16)
  | rsvd (m : Fin 6) (w : BitVec 28)
  deriving DecidableEq, Repr

/-- What a direct write to MQk writes (R228). -/
inductive MqPart where
  | full (v : BitVec 64)
  | low  (v : W32)
  | high (v : W32)
  deriving DecidableEq, Repr

/-- The word a scrub access reads (R377). -/
inductive ScrubTarget where
  | mem (adr : W32)
  | zone (word : BitVec 15)
  deriving DecidableEq, Repr

/-- What a SECDED check finds in a word (R209). -/
inductive Upset where
  | none | single | double
  deriving DecidableEq, Repr

/-- A read of a queue's data register (R290, R295): the Bulk Queue or the Report Queue, and what the check bits of the word at P show. -/
structure QueueRead where
  bulk  : Bool
  found : Upset
  deriving DecidableEq, Repr

/-- R295: why a queue is reset. -/
inductive QCause where
  | pointer | ecc
  deriving DecidableEq, Repr

/-- R380, R365: why a link port is fenced. -/
inductive LinkCause where
  | resends | train
  deriving DecidableEq, Repr

/-- R400, R401: the boundary register, a cell for each digital signal ball, link ball and permit output: SYN0 to SYN3 and BEAT; L0P, L0N to
L5P, L5N; HD, HA; HCS_n, HOE_n, HWE_n, HWAIT_n, HINT_n; WAKE_n, RESET_n, ROLE, BOOT1, BOOT0, REFCLK; FLCS_n, FLCK, FLD0 to FLD3; PRM0 to
PRM3. A group's first ball is its bit 0. -/
structure Cells where
  time  : BitVec 5
  link  : BitVec 12
  hd    : W16
  ha    : BitVec 6
  host  : BitVec 5
  ctrl  : BitVec 6
  flash : BitVec 6
  prm   : BitVec 4
  deriving DecidableEq, Repr

/-- R401: a SAMPLE/PRELOAD: the levels at the balls when it captures, and the cells that are shifted in. -/
structure ScanIn where
  balls : Cells
  cells : Cells
  deriving DecidableEq, Repr

/-- One constructor per row of spec/opcode_table.json. -/
inductive Instr where
  | powerOnReset
  | resetNAssert (ns : Nat)
  | resetEnd (roleLevel : Nat) (strapSrc : BitVec 2)
  | clocksLocked (flash : List Byte)
  | clocksTimeout
  | loadComplete
  | bootGo (w : W16)
  | microLock (w : W16)
  | vhvLoss
  | vhvRestore
  | vfldLoss
  | vfldRestore
  | hostSupplyLoss
  | hostSupplyRestore
  | refclkLoss
  | refclkRestore
  | modeRequest (w : W16)
  | watchEntry
  | holdoverEnd
  | coreResumed
  | senseResumed
  | perfRequest (w : W16)
  | perfChangeDone
  | wakePin (lowNs : Nat)
  | linkActivityWake (port : Fin 2) (ns : Nat)
  | beat (measured : Nat)
  | beatEdge (interval : Nat)
  | beatLost
  | fenceIssue (w : W16)
  | fenceApply
  | passStart (p : Fin 16) (at_ : Nat)
  | groupStart (p : Fin 16) (g : Nat) (at_ : Nat) (q : GroupInput)
  | quietHoldEnd
  | noisyCompletion
  | deadlineReached
  | groupDecode (p : Fin 16) (g : Nat) (errs : List PathError) (zerr : List Int)
  | selfStepDone (p : Fin 16) (zerr : Int)
  | listenEnd (p : Fin 16) (samples : List (List Int))
  | synEdge (k : Fin 4) (before after : Bool)
  | synTimeout (k : Fin 4)
  | frequencyHop (p : Fin 16)
  | shdOverload (x : ShdLimit)
  | shdFence (k : Fin 4)
  | clampEvent (g : Fin 16) (sinceNs : Nat)
  | calDue
  | calibrationRequest (w : W16)
  | calStep (m0 m1 : List Int) (sat : List (Bool × Bool))
  | calForce
  | trimApply
  | ampFence (a : Fin 128)
  | elchkDue
  | elchkStep (caps : List (Nat × Bool)) (coups : List Nat)
  | elecFence (e : Fin 256)
  | elchklate
  | pipelineRow (p : Fin 16) (t : Nat) (err : Int)
  | passDone (p : Fin 16)
  | keySelect (p : Fin 16) (grp : Nat)
  | baselineValid (p : Fin 16)
  | retrackEnd (p : Fin 16)
  | negReseat (p : Fin 16) (i : Nat)
  | blrelease (p : Fin 16)
  | pipeFence (p : Fin 16)
  | reseat (w : W16)
  | retrack (w : W16)
  | streamFrame (p : Fin 16)
  | gesture
  | checkSlotDone (samples : List (List Int))
  | comparatorCrossing (k : Fin 4) (level : Int)
  | urgentConversion (x : AuxInputs) (vref : Nat)
  | seqEntryStart
  | seqConversion (x : AuxInputs) (vref : Nat)
  | auxResult (parityBad : Bool)
  | auxChannelUnmeasurable (ch : Fin 8)
  | excOverload (x : ExcLimit)
  | excRefbad (x : ExcSense)
  | excThermalTrip (j : Fin 4)
  | excThermalRecover (j : Fin 4)
  | axcalZero (w : W16)
  | axcalSpan (w : W16)
  | axcalStart
  | axcalDone (ch : Fin 8)
  | auxdataRead (side : Side)
  | zoneTrip (z : Fin 32)
  | zoneRelease (z : Fin 32)
  | zoneUnmeasTrip (z : Fin 32)
  | zoneBaselineValid (z : Fin 32)
  | zoneSourceTimeout (z : Fin 32)
  | zclr (hi : Bool) (w : W16)
  | zoneBitmapWrite (adr : BitVec 15) (v : W16)
  | permitOn (k : Fin 4)
  | permitForce (w : W16)
  | permitReadbackFault (k : Fin 4)
  | permitShort (k : Fin 4)
  | backfedRejudge (k : Fin 4)
  | permclr (w : W16)
  | alertPeriodic
  | remoteTimeout (dev : BitVec 9)
  | lampPeriodStart (k : Fin 8) (x : LampStart) (on : LampOn)
  | lampOffEdge (k : Fin 8) (reached : Bool) (level : LampLevel)
  | lampEdgeDeferred (k : Fin 8) (x : LampOn)
  | lampDiagPulse (k : Fin 8) (below : Bool)
  | lampThermalTrip (k : Fin 8)
  | mov (h : IHdr) (d s : Opd)
  | lea (h : IHdr) (d s : Opd)
  | gath (h : GathHdr) (d b i : Opd)
  | add (h : IHdr) (d s1 s2 : Opd)
  | sub (h : IHdr) (d s1 s2 : Opd)
  | adds (h : IHdr) (d s1 s2 : Opd)
  | subs (h : IHdr) (d s1 s2 : Opd)
  | neg (h : IHdr) (d s : Opd)
  | abs (h : IHdr) (d s : Opd)
  | min (h : IHdr) (d s1 s2 : Opd)
  | max (h : IHdr) (d s1 s2 : Opd)
  | and (h : IHdr) (d s1 s2 : Opd)
  | or (h : IHdr) (d s1 s2 : Opd)
  | xor (h : IHdr) (d s1 s2 : Opd)
  | not (h : IHdr) (d s : Opd)
  | shl (h : IHdr) (d s n : Opd)
  | shr (h : IHdr) (d s n : Opd)
  | ext (h : IHdr) (d s : Opd)
  | cmp (h : IHdr) (s1 s2 : Opd)
  | tst (h : IHdr) (s1 s2 : Opd)
  | plog (h : IHdr)
  | mul (h : IHdr) (s1 s2 : Opd)
  | mac (h : IHdr) (s1 s2 : Opd)
  | mqrd (h : IHdr) (d : Opd)
  | crcw (h : IHdr) (s : Opd)
  | parity (h : IHdr) (d s : Opd)
  | brev (h : IHdr) (d s : Opd)
  | resid (h : IHdr) (d s : Opd)
  | br (h : IHdr)
  | jmp (h : IHdr) (s : Opd)
  | call (h : IHdr)
  | calli (h : IHdr) (s : Opd)
  | ret (h : IHdr)
  | resume (h : IHdr)
  | trap (h : IHdr)
  | loop (h : IHdr) (s : Opd)
  | lbrk (h : IHdr)
  | wait (h : IHdr)
  | waitRelease
  | nop (w : W32)
  | userInstruction (n : Fin 16) (h : IHdr) (ops : List Opd)
  | eventTrap (firmware : Bool)
  | timerExpire
  | timerWrite (v : W32)
  | mqWrite (k : Fin 4) (v : MqPart)
  | rsbotRead
  | rsbotWrite (v : W32)
  | cycloRead
  | carudHalt (w : W16)
  | carudRun (w : W16)
  | carudReset (w : W16)
  | carudDoorbell (w : W16)
  | scratchWrite (v : W16)
  | beatloRead
  | calcntloRead
  | synperloRead (k : Fin 4)
  | counterClearingRead (r : RegTarget) (event : Bool)
  | registerWrite (side : Side) (r : RegTarget) (v : W16)
  | windatRead
  | windatWrite (v : W16)
  | windowSelectWrite (remadr : Bool) (v : W16)
  | remoteFetch (w : W16)
  | remotePush (w : W16)
  | windowTimeout
  | queueDataRead (x : QueueRead)
  | queueFlush (bulk : Bool) (w : W16)
  | queueFlushEffect (bulk : Bool)
  | queueFlushnow (bulk : Bool) (w : W16)
  | queuePacketWrite (bulk : Bool) (n : Nat)
  | queueReset (bulk : Bool) (why : QCause)
  | pastart (v : W16)
  | padata (v : W16)
  | rxrtailWrite (v : W16)
  | logEntryRead (slot : BitVec 6)
  | reportRx (port : Fin 6) (x : RxParcel)
  | bulkRx (port : Fin 6) (x : RxParcel)
  | alertRx (port : Fin 6) (x : RxParcel)
  | fenceRx (port : Fin 6) (x : RxParcel)
  | fenceackRx (port : Fin 6) (x : RxParcel)
  | beatRx (port : Fin 6) (x : RxParcel) (arrived : Int)
  | grantRx (port : Fin 6) (x : RxParcel)
  | endRx (port : Fin 6) (ack inv : Byte) (rt : Nat)
  | helloRx (port : Fin 6) (x : RxParcel)
  | enumRx (port : Fin 6) (x : RxParcel)
  | winreqRx (port : Fin 6) (x : RxParcel)
  | winrspRx (port : Fin 6) (x : RxParcel)
  | bootimgRx (port : Fin 6) (x : RxParcel)
  | heartbeatRx (port : Fin 6) (x : RxParcel)
  | takeoverRx (port : Fin 6) (x : RxParcel)
  | grantSend (port : Fin 6)
  | downwardParcelSend (port : Fin 6)
  | windowLost (port : Fin 6)
  | collision (port : Fin 6)
  | downPortBeacon (port : Fin 6)
  | grantTimeout (port : Fin 6) (ns : Nat)
  | linkPortFence (port : Fin 6) (why : LinkCause)
  | beatSideSwitch
  | helloSend (sinceNs : Nat)
  | helloRetry
  | enumComplete
  | broadcastComplete
  | takeover
  | startupTakeover
  | becomeStandby
  | strapConflict
  | unfenceTest (w : W16)
  | unfenceCommand (w : W16)
  | repairTestDone (cal : List CalReading) (els : List ElMeas) (good : Bool)
  | unfenceApply
  | scrubAccess (t : ScrubTarget) (found : Upset)
  | jtagBypass
  | jtagIdcode
  | jtagSamplePreload (x : ScanIn)
  | jtagExtest
  | jtagExtestExit
  | resetNRelease
  | powerOnResetRelease
  | permitReadbackChange (k : Fin 4) (on : Bool)
  | permitSwitchCooled (k : Fin 4)
  | excRefbadClear (x : ExcSense)
  | dormantEntryFromHold
  deriving DecidableEq, Repr

end Sys2Proof
end

