-- ==== Sys2Proof/Config.lean ====
section
/-! DEFINITION. What the manual leaves open and each device fixes: opaque values, none of which Lean can evaluate (log 3). -/
namespace Sys2Proof

/-- R392: whether the n-th RESET_n pulse of 100 ns to 1 us resets the device; the manual does not define it. -/
opaque Config.pulseResets : Nat → Bool
/-- R221: the address register after a CIRC access whose An or k breaks the buffer's condition; undefined by the manual. -/
opaque Config.circUndefined : Nat → BitVec 32
/-- R154: the production trim of the expected check code of level l, within one count (00 none, 01 plus one, 10 minus one, 11 none). -/
opaque Config.checkTrim : Nat → BitVec 2
/-- R157: the raw code of a ratiometric conversion whose sensed reference is 0 V, for which the manual states no value. -/
opaque Config.noRefCode : Nat → Int
/-- R173: OFS where the sum divided by 16 does not fit a signed 16-bit field, for which the manual states no value. -/
opaque Config.ofsRange : Nat → BitVec 16
/-- R137, R142: how the base firmware orders candidate pairs at the same distance, which the manual does not state. -/
opaque Config.tieBreak : Nat → Nat → Nat → Bool

/-- R80, R108: what the 24 bits of a raw word hold where the decoded N lies outside them (every step of a column at its lower limit),
for which the manual states no value. -/
opaque Config.nRange : Int → BitVec 24
/-- R122: a region's SUM where the sum of its deltas does not fit 24 bits, for which the manual states no value. -/
opaque Config.regionSumRange : Nat → BitVec 24
/-- R182, R204: ZMETRIC of a FALL zone whose metric is -32,768, so that e does not fit the field; the manual states no value. -/
opaque Config.metricRange : Int → BitVec 16

/-- R97: the level that a device gives an amplifier whose samples hold no power at a half period; the manual states none. -/
opaque Config.silentLevel : Nat → Int
/-- R97: whether a device rounds up the level of the samples at a half period, in SENSE clocks, to 0.25 dB; the manual does not state the rounding. -/
opaque Config.levelUp : List Int → Nat → Bool

/-- R213: the element size in bytes that FDCTL's undefined size code 3 gives. -/
opaque Config.fdSize3 : Nat
/-- R213: what FDCTL's undefined EDGE code 3 does, as one of the defined codes. -/
opaque Config.fdEdge3 : Fin 3
/-- R213: the width that CRCCFG's undefined width code 3 gives. -/
opaque Config.crcWidth3 : Nat
/-- R250: what a temporary, an operand or an operand address holds that no step of the user instruction has set. -/
opaque Config.microFree : Nat → Nat → BitVec 32

/-- R220, R223: the address of a node outside its frame with EDGE = ZERO, for which the manual states none. -/
opaque Config.outsideAddr : Nat → BitVec 32

/-- R139: whether the base firmware calls a contact that moved by (dx, dy) STILL rather than MOVE, which the manual does not state. -/
opaque Config.fwStill : Int → Int → Bool
/-- R142: whether the base firmware rounds a weighted mean that is no whole number up, which the manual does not state. -/
opaque Config.fwRoundUp : Int → Nat → Bool
/-- R142: the extent across which a device's patch mirrors X (false) or Y (true), which the manual does not state. -/
opaque Config.patchSpan : Nat → Bool → Int

/-- R358: the command of the reserved FLRD code 3, and what it returns at a flash address (log 131). -/
opaque Config.flashCmd : Bool → Byte
opaque Config.flashByte : Nat → Byte

/-- R327: how many BOOTIMG parcels may wait at a downlink when one more is taken for it (log 128). -/
opaque Config.imageWait : Nat

end Sys2Proof
end

