-- ==== Sys2Proof/Machine/Bits.lean ====
section
/-! DEFINITION. Bit fields, saturating counters, rounding and checksums used throughout. -/
namespace Sys2Proof.Machine

/-- Bit i of a word. -/
def bit {n : Nat} (w : BitVec n) (i : Nat) : Bool := w.getLsbD i

/-- w with bit i set to b. -/
def putBit {n : Nat} (w : BitVec n) (i : Nat) (b : Bool) : BitVec n :=
  if b then w ||| (1#n <<< i) else w &&& ~~~(1#n <<< i)

/-- Field [lo + len - 1 : lo] of a word, as a number (R6). -/
def fld {n : Nat} (w : BitVec n) (lo len : Nat) : Nat := (w.toNat >>> lo) % 2 ^ len

/-- A number as a 16-bit word. -/
def w16 (x : Nat) : W16 := BitVec.ofNat 16 x

/-- A truth value as a bit of a number. -/
def b2n (b : Bool) : Nat := if b then 1 else 0

/-- A 16-bit counter that saturates at 0xFFFF (R382). -/
def satInc (c : W16) : W16 := if c = 0xFFFF then c else c + 1

/-- A saturating counter advanced n times. -/
def satAdd (c : W16) (n : Nat) : W16 := if 0xFFFF ≤ c.toNat + n then 0xFFFF else BitVec.ofNat 16 (c.toNat + n)

/-- x limited to lo..hi. -/
def limit (lo hi x : Int) : Int := if x < lo then lo else if hi < x then hi else x

/-- Arithmetic right shift with the rounding term of R115, R180: (x + 2^(k-1)) >> k, and x for k = 0. -/
def roundShift (x : Int) (k : Nat) : Int := if k = 0 then x else (x + 2 ^ (k - 1)) >>> k

/-- a / b rounded to nearest, halves toward positive (R62, R120, R173, R174); b > 0. -/
def roundDiv (a : Int) (b : Nat) : Int := (2 * a + b) / (2 * b)

/-- The same for any nonzero divisor. -/
def roundDivI (a b : Int) : Int := if b < 0 then roundDiv (-a) b.natAbs else roundDiv a b.natAbs

/-- a rounded up to the next multiple over b (R78, R90). -/
def ceilDiv (a b : Nat) : Nat := (a + b - 1) / b

/-- The residue of R127, R232: the value reduced to 0..65,520. -/
def residue (x : Int) : Nat := (x % 65521).toNat

/-- Parity of the low n bits (R223). -/
def parityBit (x n : Nat) : Bool := (List.range n).foldl (fun p i => xor p (x.testBit i)) false

/-- The number of 1 bits among the low n (R79). -/
def popcount (x n : Nat) : Nat := (List.range n).foldl (fun c i => c + b2n (x.testBit i)) 0

/-- The low w bits of x in reverse order (R223 BREV). -/
def reverseBits (x w : Nat) : Nat := (List.range w).foldl (fun a i => a + (if x.testBit i then 2 ^ (w - 1 - i) else 0)) 0

/-- Sign extension of the low n bits of a number (R218). -/
def signed (x n : Nat) : Int := if x % 2 ^ n < 2 ^ (n - 1) then (x % 2 ^ n : Nat) else (x % 2 ^ n : Nat) - (2 ^ n : Nat)

/-- The low n bits of an integer, as a number. -/
def wrapN (x : Int) (n : Nat) : Nat := (x % (2 ^ n : Nat)).toNat

/-- A list with element i changed by f. -/
def upd {α : Type} (l : List α) (i : Nat) (f : α → α) : List α := l.modify i f

/-- One byte fed most significant bit first into a CRC register of `width` bits (R231). -/
def crcByteFwd (poly : Nat) (width : Nat) (c : Nat) (b : Nat) : Nat :=
  (List.range 8).foldl
    (fun c i =>
      let top := (c.testBit (width - 1)) != (b.testBit (7 - i))
      let c' := (c * 2) % 2 ^ width
      if top then Nat.xor c' poly else c') (c % 2 ^ width)

/-- One byte fed least significant bit first; the register shifts right (R231). -/
def crcByteRefl (poly : Nat) (width : Nat) (c : Nat) (b : Nat) : Nat :=
  let rp := reverseBits poly width
  (List.range 8).foldl
    (fun c i =>
      let low := (c.testBit 0) != (b.testBit i)
      let c' := c / 2
      if low then Nat.xor c' rp else c') (c % 2 ^ width)

/-- One byte under the CRC-32 of R129. -/
def crc32Byte (c : Nat) (b : Byte) : Nat := crcByteRefl 0x04C11DB7 32 c b.toNat

/-- The CRC-32 of R129 over a list of bytes. -/
def crc32 (bs : List Byte) : W32 := BitVec.ofNat 32 (Nat.xor (bs.foldl crc32Byte 0xFFFFFFFF) 0xFFFFFFFF)

/-- Bytes of a 16-bit and of a 32-bit value, most significant first (R287). -/
def be16 (v : W16) : List Byte := [BitVec.ofNat 8 (v.toNat / 256), BitVec.ofNat 8 v.toNat]
def be32 (v : W32) : List Byte :=
  [BitVec.ofNat 8 (v.toNat / 0x1000000), BitVec.ofNat 8 (v.toNat / 0x10000), BitVec.ofNat 8 (v.toNat / 0x100), BitVec.ofNat 8 v.toNat]

/-- The number that bytes spell, most significant first. -/
def fromBe (bs : List Byte) : Nat := bs.foldl (fun a b => a * 256 + b.toNat) 0

/-- Byte i of a list, 0 beyond its end. -/
def byteAt (bs : List Byte) (i : Nat) : Byte := bs.getD i 0

/-- The number spelled by n bytes from position i. -/
def beAt (bs : List Byte) (i n : Nat) : Nat := fromBe ((bs.drop i).take n)

end Sys2Proof.Machine
end

