-- ==== Sys2Proof/Machine/Sparse.lean ====
section
/-! DEFINITION. Sparse storage: lists of (address, value) in one canonical form, addresses strictly rising and no entry equal
to what an unlisted address reads as. Used for the memories (R206), the zone SRAM (R179), MICRO (R249) and the register words. -/
namespace Sys2Proof.Machine

/-- The value at an address; `d` gives what an unlisted address reads as. -/
def sget {β : Type} (d : Nat → β) : List (Nat × β) → Nat → β
  | [], a => d a
  | (k, v) :: t, a => if k = a then v else if a < k then d a else sget d t a

/-- The storage with v written at a, in canonical form. -/
def sset {β : Type} [DecidableEq β] (d : Nat → β) : List (Nat × β) → Nat → β → List (Nat × β)
  | [], a, v => if v = d a then [] else [(a, v)]
  | (k, w) :: t, a, v =>
    if k < a then (k, w) :: sset d t a v
    else if k = a then (if v = d a then t else (a, v) :: t)
    else if v = d a then (k, w) :: t else (a, v) :: (k, w) :: t

/-- The canonical form: every key is at least lo, keys rise strictly, no value equals its default. -/
def swfFrom {β : Type} [DecidableEq β] (d : Nat → β) : Nat → List (Nat × β) → Bool
  | _, [] => true
  | lo, (k, v) :: t => decide (lo ≤ k) && decide (v ≠ d k) && swfFrom d (k + 1) t

/-- The canonical form of a whole storage. -/
def swf {β : Type} [DecidableEq β] (d : Nat → β) (m : List (Nat × β)) : Bool := swfFrom d 0 m

/-- Every listed address from lo up to hi - 1 returned to its default. -/
def sclear {β : Type} (lo hi : Nat) (m : List (Nat × β)) : List (Nat × β) :=
  m.filter (fun e => !(decide (lo ≤ e.1) && decide (e.1 < hi)))

/-- Memory words and bytes read 0 where nothing is listed (R347, R179, R362; log 6). -/
def zero16 : Nat → W16 := fun _ => 0
def zero8 : Nat → Byte := fun _ => 0

end Sys2Proof.Machine
end

