-- ==== Sys2Proof/Machine/RegMap.lean ====
section
/-! DEFINITION. The register tables' RW words: which bits a write stores, their reset values, and when they take force
(R70, R101, R144, R145, R166, R177, R204, R298, R340, R364, R381). CONFIG page 0 word w has key w; AUX page 0 word w has key 0x10000 + w. -/
namespace Sys2Proof.Machine

/-- When a written field takes force. -/
inductive TakesForce where
  /-- At the next fence (R30). -/
  | fence
  /-- At the access. -/
  | access
  /-- At the sequence loop boundary after the fence (R166, second row). -/
  | loop
  /-- With the next delivered result (R166, first row). -/
  | delivery
  /-- At the start of the lamp's next PWM period (R200). -/
  | lamp
  deriving DecidableEq, Repr

/-- A register word's writable mask and reset value. -/
structure RegSpec where
  mask  : W16 := 0
  reset : W16 := 0
  deriving DecidableEq, Repr

/-- R101: pass descriptor words. -/
def passWord : Nat → RegSpec
  | 0 => ⟨0x1FFF, 0x0E40⟩
  | 1 => ⟨0x07FF, 0x00A2⟩
  | 2 => ⟨0x07FF, 0x0001⟩
  | 3 => ⟨0xFFFF, 0⟩
  | 4 => ⟨0x1FFF, 0x0020⟩
  | 5 => ⟨0x000F, 0⟩
  | _ => {}

/-- R144: pipeline descriptor words. -/
def pipeWord : Nat → RegSpec
  | 0 => ⟨0x0FFF, 0⟩
  | 1 => ⟨0xFFFF, 0x1F84⟩
  | 2 => ⟨0xFFFF, 0x0C28⟩
  | 3 => ⟨0xFFFF, 0x4008⟩
  | 4 => ⟨0xFFFF, 0⟩
  | 5 => ⟨0x0FFF, 100⟩
  | 6 => ⟨0xFFFF, 0x040A⟩
  | 7 => ⟨0x000F, 0⟩
  | 8 => ⟨0xFFFF, 0x2018⟩
  | 9 => ⟨0x0FFF, 200⟩
  | 10 => ⟨0x0FFF, 150⟩
  | 11 => ⟨0x03FF, 0x0050⟩
  | 12 => ⟨0x007F, 0⟩
  | _ => {}

/-- R204: zone descriptor words. -/
def zoneWord : Nat → RegSpec
  | 0 => ⟨0xFFFF, 0⟩
  | 1 => ⟨0xFFFF, 0x2940⟩
  | 2 => ⟨0x1FFF, 0x0070⟩
  | 3 => ⟨0xFFFF, 0⟩
  | 4 => ⟨0xFFFF, 0⟩
  | 5 => ⟨0xFFFF, 0⟩
  | 6 => ⟨0xFFFF, 0⟩
  | 7 => ⟨0xFFFF, 0⟩
  | 8 => ⟨0xFFFF, 0⟩
  | _ => {}

/-- R101: the reset half periods FQ0 to FQ7. -/
def fqReset : Nat → W16
  | 0 => 50 | 1 => 56 | 2 => 62 | 3 => 70 | 4 => 80 | 5 => 100 | 6 => 125 | _ => 200

/-- R145: the base firmware's parameter block. -/
def fwWord : Nat → RegSpec
  | 0 => ⟨0xFFFF, 768⟩
  | 1 => ⟨0xFFFF, 0x0302⟩
  | 2 => ⟨0x0FFF, 300⟩
  | 3 => ⟨0xFFFF, 0x0C06⟩
  | 4 => ⟨0x3F0F, 0x2803⟩
  | 5 => ⟨0xFFFF, 384⟩
  | 6 => ⟨0x00FF, 4⟩
  | 7 => ⟨0x0003, 3⟩
  | _ => {}

/-- R177: an AUX channel's words; k is the channel. -/
def chanWord (k : Nat) : Nat → RegSpec
  | 0 => ⟨0xF1FF, 0x4010⟩
  | 1 => ⟨0xFFFF, 0⟩
  | 2 => ⟨0xFFFF, 0x4000⟩
  | 5 => if k < 4 then ⟨0x00FF, 0x0088⟩ else {}
  | 6 => if k < 4 then ⟨0xFFFF, 0x7F80⟩ else {}
  | _ => {}

/-- R177: the AUX page's words. -/
def auxSpec (a : Nat) : RegSpec :=
  if a = 0 then ⟨0x001F, 0x000C⟩
  else if a = 2 then ⟨0x00FF, 6⟩
  else if a = 9 then ⟨0xFFFF, 0⟩
  else if a < 0x0C then {}
  else if a < 0x10 then ⟨0x001F, 0⟩
  else if a < 0x50 then chanWord ((a - 0x10) / 8) (a % 8)
  else if a < 0x80 then {}
  else if a < 0x100 then
    (if a % 4 = 0 then ⟨0xFF1F, 0⟩ else if a % 4 = 1 then ⟨0xFFFF, 0⟩ else if a % 4 = 2 then ⟨0x001F, 0⟩ else {})
  else {}

/-- CONFIG words 0x0100 to 0x05FF (R70, R101). -/
def senseSpec (a : Nat) : RegSpec :=
  if a = 0x100 then ⟨0x0FF1, 0x0001⟩
  else if a = 0x102 then ⟨0x003F, 0x0009⟩
  else if a = 0x104 then ⟨0xFF0F, 0x2805⟩
  else if a < 0x200 then {}
  else if a < 0x400 then (if a % 2 = 0 then ⟨0x007F, BitVec.ofNat 16 (((a - 0x200) / 2) % 16)⟩ else ⟨0xFFFF, 0⟩)
  else if a = 0x500 then ⟨0x1F01, 0x0400⟩
  else if a = 0x502 then ⟨0xFFFF, 0x10CC⟩
  else if a < 0x508 then {}
  else if a < 0x510 then ⟨0x07FF, fqReset (a - 0x508)⟩
  else if a < 0x514 then ⟨0x0003, 0⟩
  else if a < 0x518 then ⟨0xFFFF, 0⟩
  else {}

/-- CONFIG words from 0x1000 to 0x47FF (R144, R145, R298, R340, R364, R381, R141). -/
def midSpec (a : Nat) : RegSpec :=
  if a < 0x1200 then pipeWord (a % 16)
  else if a < 0x1240 then ⟨0xFFFF, 0x8888⟩
  else if a = 0x1246 then ⟨0x003F, 0⟩
  else if a = 0x1247 then ⟨0xFFFF, 0⟩
  else if a = 0x1248 then ⟨0x0FFF, 0⟩
  else if a = 0x124A then ⟨0x0FFF, 150⟩
  else if a = 0x124B then ⟨0xFFFF, 0x9632⟩
  else if a = 0x124C then ⟨0xFFFF, 0x7D60⟩
  else if a = 0x124D then ⟨0xFFFF, 0x6446⟩
  else if a = 0x124E then ⟨0xFFFF, 0x4064⟩
  else if a = 0x1400 then ⟨0x0003, 0x0002⟩
  else if a = 0x1500 then ⟨0x0FFF, 0x00FF⟩
  else if a = 0x1508 then ⟨0x01FF, 0⟩
  else if a = 0x1509 then ⟨0x1FFF, 0⟩
  else if a = 0x150B then ⟨0x01FF, 0⟩
  else if a = 0x1601 then ⟨0xFFFF, 0xFFFF⟩
  else if a = 0x1602 then ⟨0x003F, 0x003F⟩
  else if a = 0x1603 then ⟨0x0003, 0x0001⟩
  else if a = 0x1604 then ⟨0xFFFF, 0x03E8⟩
  else if a = 0x1700 then ⟨0x0FFF, 0⟩
  else if a < 0x1800 then {}
  else if a < 0x1808 then fwWord (a - 0x1800)
  else if a < 0x2000 then {}
  else if 0x2004 ≤ a ∧ a < 0x2008 then {}
  else if 0x20F8 ≤ a ∧ a < 0x21FF then {}
  else if a < 0x4200 then ⟨0xFFFF, 0⟩
  else {}

/-- CONFIG words from 0x4800 (R204, R145, R340). -/
def highSpec (a : Nat) : RegSpec :=
  if a < 0x4A00 then zoneWord (a % 16)
  else if a < 0x4A08 then ⟨0xFFFF, 0⟩
  else if a = 0x4A0A then ⟨0xFFFF, 0x1007⟩
  else if a < 0x4B00 then {}
  else if a < 0x4D00 then (if a % 2 = 0 then ⟨0xBFFF, 0⟩ else ⟨0x000F, 0⟩)
  else if a = 0x4D00 then ⟨0x0001, 0⟩
  else if a = 0x4D01 then ⟨0xFFFF, 2500⟩
  else if a < 0x4D08 then {}
  else if a < 0x4D10 then ⟨0x003F, 0⟩
  else if a < 0x4D18 then ⟨0x0FFF, 0⟩
  else if a < 0x6000 then {}
  else if a < 0x6800 then
    (if a % 4 = 0 then ⟨0xFFFF, 0⟩ else if a % 4 = 1 then ⟨0x87FF, 0⟩ else if a % 4 = 2 then ⟨0xFFFF, 0⟩ else ⟨0x00FF, 0⟩)
  else if a < 0x7000 then {}
  else if a < 0x7800 then
    (if a % 4 = 2 then ⟨0x80FF, 0⟩ else if a % 4 = 3 then {} else ⟨0xFFFF, 0⟩)
  else {}

/-- The RW bits and reset value of a register word, by key. -/
def regSpec (key : Nat) : RegSpec :=
  if 0x10000 ≤ key then auxSpec (key - 0x10000)
  else if key < 0x600 then senseSpec key
  else if key < 0x700 then passWord (key % 8)
  else if key < 0x800 then {}
  else if key < 0x1000 then ⟨0xFFFF, 0⟩
  else if key < 0x4800 then midSpec key
  else highSpec key

/-- A register word's reset value. -/
def regReset (key : Nat) : W16 := (regSpec key).reset

/-- A register word's RW bits. -/
def regMask (key : Nat) : W16 := (regSpec key).mask

/-- When a word's fields take force; LINKCFG and AUXCFG, whose fields differ, are told apart by `accessBits`. -/
def takesForce (key : Nat) : TakesForce :=
  if 0x10000 ≤ key then
    (let a := key - 0x10000
     if a = 2 then .fence else if a = 9 then .fence
     else if 0x10 ≤ a ∧ a < 0x50 ∧ 5 ≤ a % 8 then .fence
     else .loop)
  else if key = 0x150B then .access
  else if 0x1600 < key ∧ key < 0x1604 then .access
  else if key = 0x1700 then .access
  else if 0x2000 ≤ key ∧ key < 0x4200 then .access
  else if 0x4D00 ≤ key ∧ key < 0x4D18 then .lamp
  else if 0x7000 ≤ key then .access
  else .fence

/-- R340: bits of a staged word that act at the access (LINKCFG.TMODE, TMVAL, YIELD). -/
def accessBits (key : Nat) : W16 := if key = 0x1500 then 0x0F00 else 0

/-- R166: bits that take force with the next delivered result (AUXCFG.ALIGN, CONSUMER). -/
def deliveryBits (key : Nat) : W16 := if key = 0x10000 then 0x0003 else 0

/-- R364, R347: the words that belong to AON and survive DORMANT. -/
def isAonKey (key : Nat) : Bool := decide (0x1600 ≤ key ∧ key < 0x1680)

end Sys2Proof.Machine
end

