-- ==== Sys2Proof/Machine/State.lean ====
section
/-! DEFINITION. The state of the T48: everything the manual names, as plain data, grouped by chapter; reset values stand
beside the fields. A word list is canonical (Machine/Sparse.lean): keys rise, and a word equal to its default is not listed. -/
namespace Sys2Proof.Machine

/-- No command stops the block with a fault: every fault of the manual is an effect on the state (log 1). -/
inductive Fault where
  deriving DecidableEq, Repr

/-- Why a command has no meaning. -/
inductive Refusal where
  /-- The command has no meaning yet; safe. Raised by no arm of exec. -/
  | notModelled (mnemonic : String)
  deriving DecidableEq, Repr

/-- R364: a power domain's state. -/
inductive Dom where
  | off | retention | run
  deriving DecidableEq, Repr

/-- R268: STATUS.BOOT, in the order of its codes. -/
inductive Boot where
  | reset | clocks | load | hostload | tree | run | strapflt | bootflt
  deriving DecidableEq, Repr

/-- R267: STATUS.MODE, in the order of its codes. -/
inductive Mode where
  | scan | watch | hold | dormant
  deriving DecidableEq, Repr

/-- R14, R267: ROLE.STRAP, in the order of its codes. -/
inductive Role where
  | worker | managerB | managerA | none
  deriving DecidableEq, Repr

/-- R349: the mode change in progress. `entering m n` is the entry to HOLD or DORMANT with n hold-over beats left. -/
inductive Change where
  | idle
  | toWatch
  | watchToScan
  | entering (m : Mode) (left : Nat)
  | holdToDormant
  | resuming (m : Mode)
  deriving DecidableEq, Repr

/-- R358: one read of the flash: the command and whether it carries four address bytes, the clock in kHz, the dummy clocks, and the bytes read. -/
structure FlashRead where
  cmd : Byte
  adr4 : Bool
  khz : Nat
  dummy : Nat
  first : Nat
  count : Nat
  deriving DecidableEq, Repr

/-- Supplies, boot, modes, straps and the AON registers (chapters 8 and 11). -/
structure Power where
  /-- R341: VDD18 and VDDIO are both above 1.62 V. -/
  powered : Bool := true
  /-- R341, R392: RESET_n is held low. -/
  rstLow : Bool := false
  /-- R364: PWRSTAT.VHVOK. -/
  vhvOk : Bool := false
  /-- R364: PWRSTAT.REFOK. -/
  refOk : Bool := false
  /-- R364: PWRSTAT.VOK. -/
  vok : Bool := false
  /-- R364: PWRSTAT.VHVLOSS. -/
  vhvLoss : Bool := false
  /-- R364: PWRSTAT.REFLOSS. -/
  refLoss : Bool := false
  /-- R344: SENSE, CORE and LINK are stopped for want of REFCLK. -/
  refStop : Bool := false
  /-- R364: PWRSTAT.SENSE, CORE and LINK. -/
  sense : Dom := .off
  core : Dom := .off
  link : Dom := .off
  /-- R205: PERMIT.VFLDOK. -/
  vfldOk : Bool := false
  /-- R387: VDDIO_H above its threshold. -/
  hostOk : Bool := true
  /-- R267: STATUS.BOOT, MODE and MBUSY. -/
  boot : Boot := .reset
  mode : Mode := .scan
  mbusy : Bool := false
  /-- R270: MODECTL.REQ. -/
  reqMode : Mode := .scan
  /-- R271: PERF.REQ and NOW, and whether a level change runs. -/
  perfReq : BitVec 2 := 0
  /-- R266: ROLE, as it stood when the other domains were switched off. -/
  roleKept : W16 := 0
  perfNow : BitVec 2 := 0
  perfBusy : Bool := false
  perfTgt : BitVec 2 := 0
  /-- R349: the change in progress. -/
  change : Change := .idle
  /-- R350: wakes held until the entry to HOLD or DORMANT completes: WAKECAUSE bits and the mode to wake into. -/
  wakeHeld : Option (BitVec 5 × Mode) := none
  /-- R267: WAKECAUSE. -/
  wakecause : W16 := 0
  /-- R14, R355: the straps as sampled. -/
  role : Role := .worker
  bootSrc : BitVec 2 := 0
  /-- R267: BOOTCTL.LOCK. -/
  lock : Bool := false
  /-- R357, R360: the image's LOCK and BCAST flags. -/
  imgLock : Bool := false
  imgBcast : Bool := false
  /-- R355, R358: the flash image as the loader last read it (outside the device), and whether an image has been unpacked. -/
  flash : List Byte := []
  /-- R358: the reads that the latest flash load made. -/
  flashReads : List FlashRead := []
  loaded : Bool := false
  /-- R339: uplinks whose activity wakes from DORMANT, where LINKCFG is lost. -/
  wakePorts : BitVec 2 := 0
  /-- R348: the image is being loaded again, with the registers kept. -/
  reload : Bool := false
  /-- R353: the boot follows DORMANT, and the beat number saved in AON. -/
  fromDormant : Bool := false
  savedBeat : W32 := 0
  /-- R364: AONSCR0 to AONSCR127. -/
  aonscr : List (Nat × W16) := []
  /-- R267: IRQSTAT, IRQMASK, SCRATCH, STATUS.BOOTWR. -/
  irqstat : W16 := 0
  irqmask : W16 := 0
  scratch : W16 := 0
  bootWr : Bool := false
  deriving DecidableEq, Repr

/-- The beat, frames and fences (chapters 1, 8, 11). -/
structure Beat where
  /-- R24, R27: the beat number. -/
  no : W32 := 0
  /-- MODEL: SENSE clocks since the beat began, from which the phase of R7 follows, and SENSE clocks that have passed in all (log 2). -/
  clk : Nat := 0
  now : Nat := 0
  /-- R85: the last measured beat period, in SENSE clocks. -/
  period : Nat := 100000
  /-- R27: the timestamp latched by BEATLO. -/
  latBeat : W32 := 0
  latPhase : W16 := 0
  /-- R267: FRAMESEQ. -/
  frameSeq : W16 := 0
  /-- R101: CARSTAT.RUN. -/
  running : Bool := false
  /-- R273: EPOCH. -/
  epoch : Byte := 0
  pend : Nat := 0
  done : Bool := true
  /-- R29: the epoch of a fence that waits for the frame boundary. -/
  fenceWait : Option Byte := none
  /-- R31, R362: the image's configuration waits for the first frame boundary. -/
  first : Bool := false
  /-- R187: frames since SENSE started. -/
  scanFrames : Nat := 0
  /-- R267: STATUS.BEATLOST, BEATLOCK. -/
  lost : Bool := false
  lock : Bool := false
  /-- R320: consecutive estimates within 4 ns. -/
  lockRun : Nat := 0
  /-- R363: the BEAT ball: last interval, agreeing intervals in a row, and whether the device follows it. -/
  ballPer : Nat := 0
  ballRun : Nat := 0
  following : Bool := false
  /-- MODEL: how many free values have been drawn (log 3). -/
  free : Nat := 0
  deriving DecidableEq, Repr

/-- Register words with RW fields: CONFIG page 0 word w has key w, AUX page 0 word w has key 0x10000 + w. -/
structure Regs where
  /-- What has been written, which is what a read returns (R8, R30). -/
  staged : List (Nat × W16) := []
  /-- What is in force. -/
  force : List (Nat × W16) := []
  /-- R166: AUX values whose fence has been applied and which wait for a sequence loop boundary, oldest first. -/
  auxWait : List (Nat × W16) := []
  deriving DecidableEq, Repr

/-- One charge amplifier's calibration (R62, R63). -/
structure Amp where
  trim : Int := 0
  wait : Option Int := none
  done : Bool := false
  fails : Nat := 0
  due : Bool := false
  deriving DecidableEq, Repr

/-- A sub-step of the frame gap (R60, R68, R368): the start of its burst and the end of its residue; for one of an integrity test the block and
the number of the sub-step from 0, and the pin of a repair test. -/
structure Sub where
  burst : Nat
  upTo : Nat
  el : Option (Nat × Nat) := none
  pin : Option Nat := none
  deriving DecidableEq, Repr

/-- Shields, clamps, calibration and the integrity test (chapter 2). -/
structure Analog where
  shdOvl : BitVec 4 := 0
  shdFen : BitVec 4 := 0
  /-- R52: per driver, the overloads of the last 100 ms: the time, and for how many nanoseconds the limit was active. -/
  shdTimes : List (List (Nat × Nat)) := List.replicate 4 []
  clampFlg : W16 := 0
  clampCnt : List W16 := List.replicate 16 0
  ampFen : BitVec 128 := 0
  amps : List Amp := List.replicate 128 {}
  calDue : Bool := false
  /-- R61: frames begun since the last completed step. -/
  calFrames : Nat := 0
  /-- R61: the next frame starts with a forced gap; this frame started with one. -/
  calForced : Bool := false
  calGap : Bool := false
  calCnt : W32 := 0
  calBeat : W32 := 0
  /-- R267: CALCNTHI, CALBEATLO and CALBEATHI as latched. -/
  latCnt : W16 := 0
  latBeat : W32 := 0
  /-- R64: start-up calibration steps still to run. -/
  startCal : Nat := 0
  /-- R62: trims that wait take force at the next frame boundary whatever APPLY says (R64). -/
  startTrim : Bool := false
  /-- R69: ELSTAT, and what the latest test of each pin found. -/
  verdict : List (BitVec 2) := List.replicate 256 0
  earlier : List (BitVec 2) := List.replicate 256 0
  elFen : BitVec 256 := 0
  elDue : BitVec 256 := 0
  chkDue : Bool := false
  chkFrames : Nat := 0
  chkBlk : Nat := 7
  chkLate : Bool := false
  /-- R60, R68, R96: the sub-steps run in this frame's gap, in SENSE clocks from the beat. -/
  subs : List Sub := []
  deriving DecidableEq, Repr

/-- A SYN source (R89, R90). -/
structure Syn where
  period : Nat := 0
  valid : Bool := false
  count : Nat := 0
  /-- Time of the last active edge, in SENSE clocks from the present beat; whether there has been one since the source was enabled. -/
  last : Int := 0
  seen : Bool := false
  hiLatch : W16 := 0
  deriving DecidableEq, Repr

/-- A node's decoded value (R80, R108). -/
structure Node where
  n : Int := 0
  sat : Bool := false
  fen : Bool := false
  deriving DecidableEq, Repr

/-- A key group's state (R126). -/
structure KeyGroup where
  cur : Option Nat := none
  /-- The highest key of at least KTH, and for how many consecutive frames it has been so. -/
  top : Option Nat := none
  count : Nat := 0
  /-- The challengers that qualified in the latest frame, each with its consecutive frames. -/
  quals : List (Nat × Nat) := []
  deriving DecidableEq, Repr

/-- What a step measured on one RX column (R55, R57): the composite and its SAT mark. -/
structure Comp where
  m : Int := 0
  sat : Bool := false
  deriving DecidableEq, Repr

/-- Where a step stands (R53, R91 to R93): the start of its reset, its edges so far, segments begun, whether it holds, and whether the
remaining edges follow without regard to quiet windows. Times are SENSE clocks from the beat. -/
structure StepAt where
  start : Nat
  times : List Nat := []
  seg : Nat := 0
  hold : Bool := false
  forced : Bool := false
  /-- R90, R91: when a source's window last changed in the step; no later edge is placed before it. -/
  after : Nat := 0
  deriving DecidableEq, Repr

/-- The code group, self step or LISTEN pass in progress (R53, R78, R91 to R95). -/
structure Run where
  pass : Nat
  group : Nat
  input : GroupInput
  /-- Steps completed, oldest first: one composite per RX column each. -/
  done : List (List Comp) := []
  steps : Nat
  /-- The present step; once all are complete, its start is the run's end. -/
  now : StepAt
  noisyStep : Bool := false
  noisy : Nat := 0
  /-- R52, R67: receive groups whose results in the present step are SAT. -/
  sat : Byte := 0
  deriving DecidableEq, Repr

/-- The step that gives the crossbar and the drive levels (R40, R43, R45, R92): pass, group, step, edges made, whether the RX pins are
disconnected by a hold, whether the step has ended (R51), and for one that was stopped when the edges to its rest levels are over (R86). -/
structure StepShown where
  pass : Nat
  group : Nat
  step : Nat
  edge : Nat := 0
  cut : Bool := false
  ended : Bool := false
  rest : Option Nat := none
  deriving DecidableEq, Repr

/-- R130: what a row's area held before the pipeline wrote it in this frame. -/
structure SavedRow where
  row : Nat
  raw : List Byte
  base : List Byte
  dlt : List Byte
  chk : List Byte
  deriving DecidableEq, Repr

/-- R104: the frame that the pipeline is processing for a pass; `late` once the next frame has begun. -/
structure PipeFrame where
  beat : W32
  seq : W16
  stale : BitVec 18 := 0
  noisy : BitVec 18 := 0
  skip : BitVec 18 := 0
  failed : Nat := 0
  /-- R371: groups that the zone unit treats as STALE. -/
  zstale : BitVec 18 := 0
  /-- R119, R124: the candidate set of the frame; R117: the reference pass is STALE for it. -/
  cand : Option (List Nat × List Nat) := none
  refStale : Bool := false
  /-- R183, R194: the PEAK zones that wait for a late frame, one bit a zone. -/
  peak : BitVec 32 := 0
  late : Bool := false
  deriving DecidableEq, Repr

/-- One pass of the program in force (chapters 3 and 4). -/
structure Pass where
  fq : BitVec 3 := 0
  hopCand : Option Nat := none
  hopCount : Nat := 0
  sinceHop : Option Nat := none
  /-- R107: group status of this frame. -/
  stale : BitVec 18 := 0
  noisy : BitVec 18 := 0
  skip : BitVec 18 := 0
  /-- R117: the STALE bits of the frame before. -/
  prevStale : BitVec 18 := 0
  /-- R371: groups that the zone unit treats as STALE. -/
  zstale : BitVec 18 := 0
  /-- R84: the pass has started in this frame; groups decoded or marked in it. -/
  started : Bool := false
  ended : BitVec 18 := 0
  /-- R124: candidate rows and columns of an axis-first pass; none where every node is a candidate. -/
  cand : Option (List Nat × List Nat) := none
  /-- R123, R133: the axis baselines, with 8 fractional bits. -/
  axis : List Int := []
  /-- R80, R108: decoded node values, by node index. -/
  nodes : List Node := []
  /-- R128: the predicted row checks of this frame, by row. -/
  checks : List (Option Nat) := []
  bvalid : Bool := false
  /-- R110: frames of reseat tracking still to run; 32 just after a reseat, 33 while the frame in the pipeline at the reseat goes on. -/
  seat : Nat := 0
  /-- R110: the pass has run since reset. -/
  seen : Bool := false
  retrack : Option Nat := none
  pipeFen : Bool := false
  failRows : Nat := 0
  failFrames : Nat := 0
  failNow : Bool := false
  /-- R103, R104: the frame being processed, its rows already entered, this frame skipped, and this frame finished. -/
  pipe : Option PipeFrame := none
  rows : List Nat := []
  ovr : Bool := false
  /-- R104, R107: the latest frame of the pass was skipped. -/
  lastOvr : Bool := false
  finished : Bool := false
  /-- R131: FRAMESEQ of the image completed last and not yet streamed; R138: the candidate set of the frame in the area. -/
  image : Option W16 := none
  doneCand : Option (List Nat × List Nat) := none
  saved : List SavedRow := []
  /-- R113: consecutive frozen and negative frames, by node index. -/
  frozen : List Nat := []
  negative : List Nat := []
  /-- R107: the delta image written last. -/
  cur : Bool := false
  keys : List KeyGroup := []
  deriving DecidableEq, Repr

/-- The WATCH gesture engine (R133 to R136). -/
structure Gest where
  last : BitVec 4 := 0
  ambig : Bool := false
  multi : Bool := false
  bvalid : Bool := false
  track : Nat := 0
  /-- The recognised gestures not yet written. -/
  found : List (BitVec 4) := []
  /-- Object present, its touch-down position, latest position and frames present. -/
  present : Bool := false
  x0 : Int := 0
  y0 : Int := 0
  x : Int := 0
  y : Int := 0
  frames : Nat := 0
  moved : Bool := false
  /-- After a swipe the object must lift. -/
  mustLift : Bool := false
  absent : Nat := 0
  /-- A completed tap that waits for a second touch (frames since release), and its position; the present touch is a second one. -/
  tapWait : Option Nat := none
  tapX : Int := 0
  tapY : Int := 0
  second : Bool := false
  /-- R135: that tap has been reported already, as DTAP is not enabled. -/
  tapTold : Bool := false
  palm : Nat := 0
  palmDone : Bool := false
  appr : Nat := 0
  apprDone : Bool := false
  deriving DecidableEq, Repr

/-- The carousel and the frame pipeline (chapters 3 and 4). -/
structure Carousel where
  act : Bool := false
  pass : BitVec 4 := 0
  long : Bool := false
  stalecnt : W16 := 0
  noisycnt : W16 := 0
  hopcnt : W16 := 0
  noise : List (Option Int) := List.replicate 8 none
  syn : List Syn := List.replicate 4 {}
  run : Option Run := none
  /-- R84: when the next group of the frame may start; R88: the end of the last pass that ran. SENSE clocks from the beat. -/
  time : Nat := 0
  lastEnd : Nat := 0
  /-- R45, R86: the crossbar and rest levels that the last step of the frame left. -/
  shown : Option StepShown := none
  /-- R98: the frame that has just ended had a LISTEN pass that was not STALE. -/
  heard : Bool := false
  deadline : Bool := false
  listened : Bool := false
  listenOff : Bool := false
  passes : List Pass := List.replicate 16 {}
  chkcnt : W16 := 0
  pipeovr : W16 := 0
  negcnt : W16 := 0
  gest : Gest := {}
  deriving DecidableEq, Repr

/-- How an auxiliary result is delivered (R164, R167): alone, as one repeat of a mean over n, the last one or not, or to a calibration command
(R172). -/
inductive Deliver where
  | urgent
  | each
  | mean (last : Bool) (n : Nat)
  | cal
  deriving DecidableEq, Repr

/-- A conversion whose result has not yet appeared (R149): its code and CLIP mark, its converter, when its slot began (SENSE clocks since
power-up), and for a sequenced one its entry and its number in it. -/
structure Conv where
  ch : Nat
  raw : Int
  clip : Bool
  kind : Deliver
  adc : Nat := 3
  slot : Nat := 0
  entry : Nat := 0
  rep : Nat := 1
  deriving DecidableEq, Repr

/-- R163, R164: where the sequencer stands in its entry, or a calibration command in its conversions (R172). -/
inductive SeqPhase where
  | stopped | delay | track | slot
  deriving DecidableEq, Repr

/-- A calibration command (R172): running or waiting, its outcome, and the codes it has so far. -/
structure AxCal where
  busy : Bool := false
  active : Bool := false
  ch : Nat := 0
  span : Bool := false
  res : BitVec 3 := 0
  ign : Bool := false
  got : Nat := 0
  sum : Int := 0
  clip : Bool := false
  deriving DecidableEq, Repr

/-- Converters and auxiliary channels (chapter 5). Times are SENSE clocks since power-up. -/
structure Aux where
  data : W16 := 0
  ch : BitVec 3 := 0
  valid : Bool := false
  urg : Bool := false
  clip : Bool := false
  ovr : Bool := false
  lostch : BitVec 3 := 0
  rch : BitVec 3 := 0
  rurg : Bool := false
  rclip : Bool := false
  effAdc : BitVec 2 := 3
  noAdc : Bool := false
  entry : Nat := 0
  phase : SeqPhase := .stopped
  /-- R164: when the present DELAY, track part or slot began. -/
  since : Nat := 0
  /-- R164: repeats of the entry whose slots are done; the sum of a mean's corrected values and its CLIP. -/
  reps : Nat := 0
  sum : Int := 0
  sumClip : Bool := false
  /-- R149: per channel, when its track-and-hold last returned to tracking; R160: when a clamp of its inputs last responded. -/
  tracked : List Nat := List.replicate 8 0
  clampAt : List (Option Nat) := List.replicate 8 none
  flight : List Conv := []
  /-- R152: urgent requests that wait; R148: the channel whose discarded conversion is taken again first. -/
  waiting : Byte := 0
  first : Option Nat := none
  adcFail : BitVec 4 := 0
  adcFen : BitVec 4 := 0
  chkdev : List Int := List.replicate 4 0
  /-- R154: the check slot of this frame has been judged. -/
  checked : Bool := false
  discnt : W16 := 0
  urgcnt : W16 := 0
  excOvl : BitVec 4 := 0
  /-- R159: outputs at their current limit; per output, the sensed voltage in microvolts where it is not the set one. -/
  excLim : BitVec 4 := 0
  exs : List (Option Nat) := List.replicate 4 none
  /-- R391: excitation drivers switched off by their limiter. -/
  excOff : BitVec 4 := 0
  cal : AxCal := {}
  last : List W16 := List.replicate 8 0
  age : List Byte := List.replicate 8 255
  lclip : Byte := 0
  cmp : BitVec 4 := 0
  /-- R161: comparators that have not yet taken the state of their input. -/
  cmpNew : BitVec 4 := 0xF
  deriving DecidableEq, Repr

/-- One zone (chapter 6). -/
structure Zone where
  trip : Bool := true
  bvalid : Bool := false
  fb : Bool := false
  unmeas : Bool := false
  latched : Bool := false
  held : Bool := false
  tripcnt : W16 := 0
  metric : Int := 0
  /-- R180: the baseline Bz with 8 fractional bits, and evaluations since it was seated. -/
  base : Int := 0
  evals : Nat := 0
  /-- R188: trip and release counts; R189: consecutive held frames; R185: frames since the source was evaluated. -/
  tcnt : Nat := 0
  rcnt : Nat := 0
  hcnt : Nat := 0
  since : Nat := 0
  /-- R188: the zone's source of this frame has been evaluated. -/
  inFrame : Bool := false
  /-- R192: the zone has been evaluated in this frame, if only with the frame before; consecutive frames in which it was untripped
  after its evaluations. -/
  seen : Bool := false
  clear : Nat := 0
  fen : Bool := false
  deriving DecidableEq, Repr

/-- The zone unit (chapter 6). -/
structure ZoneUnit where
  /-- R179: the zone SRAM, 32,768 words. -/
  sram : List (Nat × W16) := []
  /-- R179: words with an uncorrectable error. -/
  bad : List Nat := []
  zones : List Zone := List.replicate 32 {}
  deriving DecidableEq, Repr

/-- R197: the newest ALERT of a device and the beats since it. -/
structure Remote where
  dev : BitVec 9
  trips : W32
  age : Nat
  deriving DecidableEq, Repr

/-- R192: a remote entry's consecutive frames untripped, and whether this frame is among them. -/
structure EntryCount where
  clear : Nat := 0
  seen : Bool := false
  deriving DecidableEq, Repr

/-- One permit (R192 to R199). -/
structure Permit where
  force : Bool := false
  cmd : Bool := false
  out : Bool := false
  fault : BitVec 3 := 0
  act : Bool := false
  /-- R199: permits that were ON when BACKFED was found and have not turned OFF since; none once judged. -/
  judge : Option (BitVec 4) := none
  deriving DecidableEq, Repr

/-- One lamp (R200 to R203). -/
structure Lamp where
  cur : BitVec 6 := 0
  duty : BitVec 12 := 0
  per : Nat := 2500
  dmode : Bool := false
  on : Bool := false
  diag : BitVec 2 := 1
  age : W16 := 0xFFFF
  beats : Nat := 0
  short : Bool := false
  gnded : Bool := false
  hot : Bool := false
  /-- R203: periods since the last on-time of at least 5 us. -/
  idle : Nat := 0
  /-- R96: an edge that has been deferred: some true for an on-edge. -/
  edge : Option Bool := none
  /-- R96, R200: the next turn-on time and the last edge, in SENSE clocks since power-up, and the length of the present or awaited pulse. -/
  next : Nat := 0
  since : Nat := 0
  len : Nat := 0
  /-- R200, R203: when the present period's turn-on time came. -/
  begun : Nat := 0
  deriving DecidableEq, Repr

/-- Permits, remote entries and lamps (chapter 6). -/
structure Outputs where
  permits : List Permit := List.replicate 4 {}
  remotes : List Remote := []
  entries : List EntryCount := List.replicate 256 {}
  sinceAlert : Nat := 0
  lamps : List Lamp := (List.range 8).map (fun k => { next := 5000 * k })
  deriving DecidableEq, Repr

/-- R227: a MUL or MAC in flight; `due` CORE cycles are left before it writes MQk. -/
structure MqOp where
  k : Nat
  due : Nat
  acc : Bool
  prod : Int
  deriving DecidableEq, Repr

/-- R256: CARUDSTAT.STATE, in the order of its codes. -/
inductive CarudSt where
  | running | waiting | halted | dfault
  deriving DecidableEq, Repr

/-- Carud (chapter 7). -/
structure Carud where
  a : List W32 := List.replicate 16 0
  pr : Byte := 1
  lpdepth : Nat := 0
  lps : List W32 := List.replicate 3 0
  lpe : List W32 := List.replicate 3 0
  lpc : List W32 := List.replicate 3 0
  crcacc : W32 := 0
  crcpoly : List W32 := [0, 0]
  crccfg : W32 := 0
  mq : List (BitVec 64) := List.replicate 4 0
  mqstat : BitVec 4 := 0
  cbb : List W32 := List.replicate 4 0
  cbl : List W32 := List.replicate 4 0
  fdbase : List W32 := List.replicate 4 0
  fddim : List W32 := List.replicate 4 0
  fdctl : List W32 := List.replicate 4 0
  /-- R238: the return stack, top entry first. -/
  rs : List W32 := []
  rswrap : Bool := false
  ie : Bool := false
  tcause : Byte := 0
  tadr : W32 := 0
  gfi : BitVec 4 := 0
  evt : Byte := 0
  evten : Byte := 0
  evtpass : W16 := 0
  cyc : BitVec 64 := 0
  cychi : W32 := 0
  timer : BitVec 24 := 0
  timerClk : Nat := 0
  /-- R227: operations in flight, in issue order. -/
  flight : List MqOp := []
  /-- The word index of the next instruction. -/
  pc : W16 := 0
  st : CarudSt := .halted
  halt : Bool := false
  lastv : BitVec 4 := 0
  fen : Bool := false
  dfcause : BitVec 4 := 0
  /-- R242: at a trap vector, with no handler instruction completed. -/
  fresh : Bool := false
  /-- R237: the element at which the GATH at pc continues. -/
  gather : Option (BitVec 4) := none
  /-- R210: program-RAM bytes as instruction fetch still sees them. -/
  oldCode : List Host.Cell := []
  /-- R212: addresses that the instruction before this one writes in the present cycle. -/
  wrote : List Nat := []
  /-- R249: the microcode store and the decode table, as MICRO words. -/
  micro : List (Nat × W16) := []
  deriving DecidableEq, Repr

/-- Program RAM, data RAM and Granary at their Carud addresses (R206). -/
structure Mem where
  bytes : List Host.Cell := []
  /-- R209: 32-bit words (address / 4) with an uncorrectable, and with a single-bit, error. -/
  bad : List Nat := []
  soft : List Nat := []
  /-- R347: blocks that were not retained: bits 15 to 0 Granary banks, 19 to 16 program RAM, 21 and 20 data RAM. -/
  lost : BitVec 22 := 0
  granFen : W16 := 0
  deriving DecidableEq, Repr

/-- The host port's window (chapter 8). -/
structure Window where
  /-- R260: the value last driven on HD by a read. -/
  hd : W16 := 0
  sel : W16 := 0
  adr : W16 := 0
  remadr : W16 := 0
  busy : Bool := false
  rdy : Bool := false
  err : BitVec 4 := 0
  errf : Bool := false
  /-- R276: the odd half latched by an even read (byte offset in the space, space, value) and the even half held by a write. -/
  latch : Option (Nat × Nat × W16) := none
  held : Option (Nat × Nat × W16) := none
  /-- R278: fetched words not yet read; R279: buffered remote writes and the address of the first. -/
  fetched : List W16 := []
  buf : List W16 := []
  bufAdr : Nat := 0
  /-- R328: the outstanding request's tag, whether it is a write, and the next tag. -/
  tag : Option (W16 × Bool) := none
  /-- R279: the outstanding request is a broadcast. -/
  bcast : Bool := false
  nextTag : W16 := 0
  deriving DecidableEq, Repr

/-- One queue word (R281). -/
structure QWord where
  data : W16
  eop : Bool
  vb : Bool
  deriving DecidableEq, Repr

/-- R283: who hands a packet to a queue; the assembler's own packet and those of the base firmware rank alike. -/
inductive Producer where
  | link | streamer | assembler | firmware
  deriving DecidableEq, Repr

/-- One queue (chapter 9). -/
structure Queue where
  words : List QWord := []
  w : Nat := 0
  p : Nat := 0
  pkt : Nat := 0
  underrun : Bool := false
  qerr : Bool := false
  loss : W16 := 0
  drop : Nat := 0
  flush : Bool := false
  /-- The rest of a packet being written. -/
  writing : List QWord := []
  /-- Packets handed over, as bytes after QHDR. -/
  ready : List (Producer × List Byte) := []
  deriving DecidableEq, Repr

/-- The parcel assembler (R297). -/
structure Assembler where
  isOpen : Bool := false
  ready : Bool := true
  abrt : Bool := false
  left : Byte := 0
  len : Byte := 0
  bulk : Bool := false
  bytes : List Byte := []
  /-- R287, R330: a worker's complete BULK parcel that waits for its buffer. -/
  parcel : Option Parcel := none
  /-- R298: a PASTART held until READY. -/
  held : Option W16 := none
  /-- R252: the stores of the same user instruction that wait behind it: address, size, value. -/
  late : List (Nat × Nat × W32) := []
  deriving DecidableEq, Repr

/-- R317: a port's state, in the order of LINKSTAT's codes. -/
inductive PortSt where
  | down | train | up | fenced
  deriving DecidableEq, Repr

/-- R313: a sequenced parcel sent and not yet acknowledged, and how often it was sent. -/
structure Unacked where
  p : Parcel
  sends : Nat
  again : Bool
  deriving DecidableEq, Repr

/-- R329: the mailbox of one source device. -/
structure Mailbox where
  src : BitVec 9
  frameq : BitVec 14
  parcels : List Parcel
  deriving DecidableEq, Repr

/-- One link port (chapter 10). -/
structure Port where
  st : PortSt := .down
  /-- R313: last LINKSEQ used and last received in order. -/
  txSeq : Byte := 0
  rxSeq : Byte := 0
  unacked : List Unacked := []
  /-- R314: waiting ALERTs, one per source, and those sent in the last window. -/
  alerts : List Parcel := []
  sentAlerts : List Parcel := []
  /-- R314: a parcel of the last window failed its check. -/
  windowBad : Bool := false
  nobulk : Bool := false
  /-- Upward: PRI 2 parcels in order of arrival, WINRSPs, mailboxes, BULK. -/
  pri2 : List Parcel := []
  winrsp : List Parcel := []
  boxes : List Mailbox := []
  /-- R315: source served last in the round of mailboxes (none: the WINRSP queue). -/
  turn : Option (BitVec 9) := none
  bulk : List Parcel := []
  windows : Nat := 0
  /-- Downward parcels waiting, in order of arrival. -/
  down : List Parcel := []
  beatDue : Bool := false
  beatSeen : Bool := false
  lost : Nat := 0
  /-- R302: a window is open. -/
  window : Bool := false
  /-- R317: round trips measured in this attempt (quarter ns), and failed attempts in a row. -/
  meas : List Nat := []
  tries : Nat := 0
  trained : Option Nat := none
  /-- R318: times of the latest DOWN events, in SENSE clocks. -/
  downs : List Nat := []
  dly : BitVec 10 := 0
  dlyValid : Bool := false
  err : W16 := 0
  /-- R338: the upstream end's windows, as its BEAT's mode says; R322: a GRANT has arrived and the port number it carried. -/
  granted : Option (BitVec 3) := none
  /-- R312: SRC of the latest BEAT or GRANT on the port. -/
  src : BitVec 9 := 0
  /-- R304: a parcel has been sent, and its GRANT is owed. -/
  owed : Bool := false
  deriving DecidableEq, Repr

/-- R324: a forwarding entry: on a side, the address lies behind the port. -/
structure Route where
  sideB : Bool
  addr : BitVec 9
  port : Nat
  /-- R309: it is the port's downstream end itself. -/
  near : Bool := false
  deriving DecidableEq, Repr

/-- A device the ringmaster has enumerated (R323, R325). -/
structure Member where
  addr : BitVec 9
  hops : Nat
  port : Nat
  /-- R33: it has acknowledged the current epoch. -/
  acked : Bool
  /-- R361: images sent again to it. -/
  resent : Nat
  deriving DecidableEq, Repr

/-- R301 to R306: one thing the last sending step put on a line. -/
inductive LineItem where
  | parcel (port : Nat) (p : Parcel)
  | endMark (port : Nat) (ack : Byte)
  | fill (port : Nat)
  deriving DecidableEq, Repr

/-- T-Link and the tree (chapter 10). -/
structure Link where
  ports : List Port := List.replicate 6 {}
  tkcnt : W16 := 0
  resendcnt : W16 := 0
  collcnt : W16 := 0
  mboxovw : W16 := 0
  rxloss : W16 := 0
  fwddrop : W16 := 0
  head : BitVec 9 := 0
  miss : BitVec 2 := 0
  peer : Bool := false
  peerflt : Bool := false
  peerring : Bool := false
  /-- R333: beats since the peer's last HEARTBEAT, whether one from a ringmaster came in this beat, and beats of link service. -/
  sincePeer : Nat := 3
  heard : Bool := false
  service : Nat := 0
  /-- R16: a HEARTBEAT has come since link service began. -/
  hbSeen : Bool := false
  addr : BitVec 9 := 0
  ring : Bool := false
  stby : Bool := false
  depth : Nat := 0
  treecnt : BitVec 9 := 0
  treedepth : BitVec 4 := 0
  enumerated : Bool := false
  routes : List Route := []
  members : List Member := []
  /-- R337, R319: the ringmaster's side and the side the beat comes from: true for L1. -/
  ringB : Bool := false
  /-- R19: the manager whose parcels come in on L0. -/
  mgr0 : BitVec 9 := 0x1F0
  beatB : Bool := false
  /-- R319: the RING flag of the latest BEAT on L0 and on L1, and whether BEATs are present there. -/
  ringSeen : BitVec 2 := 0
  beatSeen : BitVec 2 := 0
  /-- R319: beats of this device's own since the latest BEAT on L0 and on L1. -/
  beatAge : List Nat := [0, 0]
  /-- R312: relayed copies seen: TYPE, SRC, EPOCH and beat number. -/
  copies : List (BitVec 6 × BitVec 9 × Byte × W32) := []
  helloSent : Bool := false
  /-- R361: bytes of the image staged so far, its length, and how the broadcast stands. -/
  imgGot : Nat := 0
  imgLen : Nat := 0
  bcastDone : Bool := false
  /-- R327, R361: the image for broadcast that a manager in RUN keeps (log 116). -/
  img : List Byte := []
  /-- R334 to R336: what waits for the next beat boundary. -/
  takeoverDue : Bool := false
  standbyDue : Bool := false
  strapDue : Bool := false
  /-- R338: TMODE and TMVAL of the BEAT followed, and beats since a BEAT came. -/
  tmode : BitVec 2 := 0
  tmval : Bool := false
  line : List LineItem := []
  deriving DecidableEq, Repr

/-- R378, R379: one event-log entry. -/
structure LogEntry where
  kind : Byte
  unit : Byte
  detail : W16
  beat : W32
  phase : W16
  frameSeq : W16
  seq : W16
  epoch : Byte
  read : Bool
  deriving DecidableEq, Repr

/-- A unit of R368: its class and index. -/
structure UnitId where
  cls : BitVec 4
  idx : Byte
  deriving DecidableEq, Repr

/-- The event log, error counters and the repair of units (chapter 12). -/
structure Faults where
  /-- The ring's slots, 0 to 63; none is EMPTY. -/
  log : List (Option LogEntry) := List.replicate 64 none
  logcount : W16 := 0
  loglost : W16 := 0
  errcnt0 : W16 := 0
  errcnt1 : W16 := 0
  busy : Bool := false
  res : BitVec 3 := 0
  ign : Bool := false
  /-- R367: the unit of the last TEST, and whether its pass still counts. -/
  tested : Option UnitId := none
  ok : Bool := false
  /-- R367: UNFSEL has been written, or the unit has faulted, since the test began. -/
  stale : Bool := false
  /-- R367, R369: the units to unfence at the next frame boundary, each with the trim that its test formed. -/
  pending : List (UnitId × Int) := []
  /-- R368: frames, check slots or gaps judged in the running test, whether all passed so far, the trim formed, and the beat of its latest gap. -/
  frames : Nat := 0
  good : Bool := true
  tau : Int := 0
  gap : Option W32 := none
  deriving DecidableEq, Repr

/-- R401: the JTAG instruction in force. -/
inductive JtagIr where
  | idcode | bypass | sample | extest
  deriving DecidableEq, Repr

/-- Boundary scan (R401). -/
structure Jtag where
  ir : JtagIr := .idcode
  dr : W32 := 0
  cells : Cells := ⟨0, 0, 0, 0, 0, 0, 0, 0⟩
  /-- R401: what the latest SAMPLE captured. -/
  sampled : Cells := ⟨0, 0, 0, 0, 0, 0, 0, 0⟩
  /-- R401: where in the beat the carousel stood when EXTEST began to hold it, in SENSE clocks. -/
  heldClk : Nat := 0
  deriving DecidableEq, Repr

/-- A track of the base firmware (R137, R138), or an object of a manager's (R142): its pass (0 for an object), ID, last two positions,
class, the class that may replace it and for how many frames it has held, PEAK, AREA, STALE, beat of DOWN, and frames unmatched. -/
structure Track where
  pass : Nat
  id : Nat
  x : Int
  y : Int
  px : Int
  py : Int
  cls : Nat
  newCls : Nat
  held : Nat
  peak : W16
  area : Nat
  born : W32
  missed : Nat
  /-- R139, R382: AGE has reached 255. -/
  old : Bool := false
  deriving DecidableEq, Repr

/-- A region left unmatched, with its last two positions and how many consecutive frames it has been seen (R137). -/
structure Newcomer where
  pass : Nat
  x : Int
  y : Int
  px : Int
  py : Int
  count : Nat
  deriving DecidableEq, Repr

/-- R139: what a contact record says of a contact, as stitching uses it. -/
structure Contact where
  cls : Nat
  x : Int
  y : Int
  peak : W16
  area : Nat
  deriving DecidableEq, Repr

/-- R142: a device's newest report. -/
structure Newest where
  dev : BitVec 9
  beat : W32
  contacts : List Contact
  deriving DecidableEq, Repr

/-- The base firmware's own variables (R2, R137 to R142); where they lie in data RAM the manual does not say. -/
structure Firmware where
  tracks : List Track := []
  newcomers : List Newcomer := []
  lastId : Nat := 0
  /-- R140: the last frame carried an UP record. -/
  ended : Bool := false
  /-- R140: the key groups' states as last reported, by pass: eight bytes of header words 6 and 7. -/
  keys : List (List Byte) := List.replicate 16 (List.replicate 8 0xFF)
  newest : List Newest := []
  objects : List Track := []
  newObjects : List Newcomer := []
  lastOid : Nat := 0
  deriving DecidableEq, Repr

/-- The state of the T48, and the queue of waiting commands. -/
structure State where
  pwr : Power := {}
  beat : Beat := {}
  regs : Regs := {}
  ana : Analog := {}
  car : Carousel := {}
  aux : Aux := {}
  zon : ZoneUnit := {}
  out : Outputs := {}
  cpu : Carud := {}
  mem : Mem := {}
  win : Window := {}
  rq : Queue := {}
  bq : Queue := {}
  pa : Assembler := {}
  lnk : Link := {}
  flt : Faults := {}
  jtag : Jtag := {}
  fw : Firmware := {}
  pending : List Instr := []
  deriving DecidableEq, Repr

/-- The machine right after reset is released (R8, R341): supplies up, boot state RESET, every register at its reset value, no command waiting. -/
def State.reset : State := {}

end Sys2Proof.Machine
end

