-- ==== Sys2Proof/Machine/Ops.lean ====
section
/-! DEFINITION. The named operations over the state that the families share: element updates, register words, the event log,
interrupts, memory bytes, the containment of units and the commanding of permits. -/
namespace Sys2Proof.Machine

/-- What every meaning answers. -/
abbrev Res := Host.Outcome State Fault Refusal

/-- A reader of register words: those in force, or those staged. -/
abbrev Reader := Nat → W16

/-! ### Elements -/

def getPass (s : State) (p : Nat) : Pass := s.car.passes.getD p {}
def setPass (s : State) (p : Nat) (f : Pass → Pass) : State := { s with car := { s.car with passes := upd s.car.passes p f } }
def allPasses (s : State) (f : Pass → Pass) : State := { s with car := { s.car with passes := s.car.passes.map f } }
def getZone (s : State) (z : Nat) : Zone := s.zon.zones.getD z {}
def setZone (s : State) (z : Nat) (f : Zone → Zone) : State := { s with zon := { s.zon with zones := upd s.zon.zones z f } }
def getPermit (s : State) (k : Nat) : Permit := s.out.permits.getD k {}
def setPermit (s : State) (k : Nat) (f : Permit → Permit) : State := { s with out := { s.out with permits := upd s.out.permits k f } }
def getLamp (s : State) (k : Nat) : Lamp := s.out.lamps.getD k {}
def setLamp (s : State) (k : Nat) (f : Lamp → Lamp) : State := { s with out := { s.out with lamps := upd s.out.lamps k f } }
def getPort (s : State) (k : Nat) : Port := s.lnk.ports.getD k {}
def setPort (s : State) (k : Nat) (f : Port → Port) : State := { s with lnk := { s.lnk with ports := upd s.lnk.ports k f } }
def getAmp (s : State) (a : Nat) : Amp := s.ana.amps.getD a {}
def setAmp (s : State) (a : Nat) (f : Amp → Amp) : State := { s with ana := { s.ana with amps := upd s.ana.amps a f } }
def getSyn (s : State) (k : Nat) : Syn := s.car.syn.getD k {}
def setSyn (s : State) (k : Nat) (f : Syn → Syn) : State := { s with car := { s.car with syn := upd s.car.syn k f } }
def getQueue (s : State) (bulk : Bool) : Queue := if bulk then s.bq else s.rq
def setQueue (s : State) (bulk : Bool) (f : Queue → Queue) : State := if bulk then { s with bq := f s.bq } else { s with rq := f s.rq }

/-! ### Register words -/

/-- The word in force (R30). -/
def reg (s : State) : Reader := sget regReset s.regs.force
/-- The staged word, which a read returns (R8). -/
def stg (s : State) : Reader := sget regReset s.regs.staged
/-- A field of a word. -/
def rf (r : Reader) (key lo len : Nat) : Nat := fld (r key) lo len
def rbit (r : Reader) (key i : Nat) : Bool := bit (r key) i
def setStaged (s : State) (key : Nat) (v : W16) : State := { s with regs := { s.regs with staged := sset regReset s.regs.staged key v } }
def setForce (s : State) (key : Nat) (v : W16) : State := { s with regs := { s.regs with force := sset regReset s.regs.force key v } }
/-- A value the T48 itself puts into a register word: staged and in force alike. -/
def setBoth (s : State) (key : Nat) (v : W16) : State := setForce (setStaged s key v) key v

/-- A write of a register word's RW bits: staged (R8, R30). -/
def stage (s : State) (key : Nat) (v : W16) : State := setStaged s key (v &&& regMask key)

/-- R8, R30, R166, R340: a write of a register word's RW bits by the host, Carud, a remote access or the image: staged, and in force
at once where its fields act at the access. -/
def plainWrite (s : State) (key : Nat) (v : W16) : State :=
  let s1 := stage s key v
  if takesForce key = .access then setForce s1 key (v &&& regMask key)
  else if accessBits key = 0 then s1
  else setForce s1 key ((reg s1 key &&& ~~~(accessBits key)) ||| (v &&& regMask key &&& accessBits key))

/-! ### Interrupts, the event log, counters -/

/-- Sets IRQSTAT bit b (R267, R10). -/
def raise (s : State) (b : Nat) : State := { s with pwr := { s.pwr with irqstat := putBit s.pwr.irqstat b true } }

/-- The phase of the present instant: 1/65,536 of the beat (R7). An instant at which the present beat has outlasted its measured period has phase
0xFFFF, and every instant phase 0 while no period is known (DESIGN CHOICE, log 119). -/
def phaseNow (s : State) : W16 :=
  if s.beat.period = 0 then 0 else if s.beat.period ≤ s.beat.clk then 0xFFFF else BitVec.ofNat 16 (s.beat.clk * 65536 / s.beat.period)

/-- Writes one event-log entry (R378, R379). -/
def logEv (s : State) (kind unit : Nat) (detail : W16) : State :=
  let slot := s.flt.logcount.toNat % 64
  let e : LogEntry := ⟨BitVec.ofNat 8 kind, BitVec.ofNat 8 unit, detail, s.beat.no, phaseNow s, s.beat.frameSeq, s.flt.logcount, s.beat.epoch, false⟩
  let unread := match s.flt.log.getD slot none with
    | some o => !o.read
    | none => false
  { s with flt := { s.flt with
      log := upd s.flt.log slot (fun _ => some e)
      logcount := s.flt.logcount + 1
      loglost := if unread then satInc s.flt.loglost else s.flt.loglost } }

/-- Insertion by KIND, then UNIT (R379); before the entries of the same kind and unit that come later. -/
def insertEv (e : Nat × Nat × W16) : List (Nat × Nat × W16) → List (Nat × Nat × W16)
  | [] => [e]
  | x :: t => if e.1 < x.1 ∨ (e.1 = x.1 ∧ e.2.1 ≤ x.2.1) then e :: x :: t else x :: insertEv e t

/-- Entries of the same clock, written in ascending KIND and then UNIT (R379). -/
def logAll (s : State) (evs : List (Nat × Nat × W16)) : State :=
  (evs.foldr insertEv []).foldl (fun s e => logEv s e.1 e.2.1 e.2.2) s

/-- An entry goes before those of a higher KIND, or of its KIND and a higher UNIT (R379). -/
def insertEntry (e : LogEntry) : List LogEntry → List LogEntry
  | [] => [e]
  | x :: t => if e.kind.toNat < x.kind.toNat ∨ (e.kind = x.kind ∧ e.unit.toNat ≤ x.unit.toNat) then e :: x :: t else x :: insertEntry e t

/-- The entries that the ring holds from sequence number n on, in that order. -/
def logSince (s : State) (n : W16) : List LogEntry :=
  let k := min 64 (s.flt.logcount - n).toNat
  (List.range k).filterMap (fun i => s.flt.log.getD ((s.flt.logcount - w16 (k - i)).toNat % 64) none)

/-- R379: the entries written from sequence number n on belong to one clock: they take their sequence numbers in ascending KIND and then UNIT. Where
more than 64 are written, those overwritten are the first that the model writes (DESIGN CHOICE, log 125). -/
def logOrder (s : State) (n : W16) : State :=
  let es := (logSince s n).foldr insertEntry []
  let first := s.flt.logcount - w16 es.length
  let log := es.zipIdx.foldl (fun l x => upd l ((first + w16 x.2).toNat % 64) (fun _ => some { x.1 with seq := first + w16 x.2 })) s.flt.log
  { s with flt := { s.flt with log := log } }

/-- ERRCNT0 advanced by a corrected SECDED error (R209). -/
def countSoft (s : State) : State := { s with flt := { s.flt with errcnt0 := satInc s.flt.errcnt0 } }

/-- Draws a free value: the count to apply an opaque value to, and the state with the count advanced (log 3). -/
def draw (s : State) : Nat × State := (s.beat.free, { s with beat := { s.beat with free := s.beat.free + 1 } })

/-! ### Memory (R206) -/

def rd8 (s : State) (a : Nat) : Byte := sget zero8 s.mem.bytes a
def rd16 (s : State) (a : Nat) : W16 := BitVec.ofNat 16 ((rd8 s a).toNat + 256 * (rd8 s (a + 1)).toNat)
def rd32 (s : State) (a : Nat) : W32 := BitVec.ofNat 32 ((rd16 s a).toNat + 65536 * (rd16 s (a + 2)).toNat)
def wr8 (s : State) (a : Nat) (v : Byte) : State := { s with mem := { s.mem with bytes := sset zero8 s.mem.bytes a v } }
def wr16 (s : State) (a : Nat) (v : W16) : State :=
  wr8 (wr8 s a (BitVec.ofNat 8 v.toNat)) (a + 1) (BitVec.ofNat 8 (v.toNat / 256))
def wr32 (s : State) (a : Nat) (v : W32) : State :=
  wr16 (wr16 s a (BitVec.ofNat 16 v.toNat)) (a + 2) (BitVec.ofNat 16 (v.toNat / 65536))
/-- Bytes written to ascending addresses. -/
def wrBytes (s : State) (a : Nat) (bs : List Byte) : State :=
  (bs.zipIdx a).foldl (fun s e => wr8 s e.2 e.1) s
/-- Every byte from lo to hi - 1 cleared, with valid check bits (R347, R362). -/
def clearMem (s : State) (lo hi : Nat) : State :=
  { s with mem := { s.mem with
      bytes := sclear lo hi s.mem.bytes
      bad := s.mem.bad.filter (fun w => !(decide (lo ≤ 4 * w) && decide (4 * w < hi)))
      soft := s.mem.soft.filter (fun w => !(decide (lo ≤ 4 * w) && decide (4 * w < hi))) } }

/-- R206: the bases of the three memories. -/
def codeBase : Nat := 0
def dataBase : Nat := 0x100000
def granBase : Nat := 0x200000

/-! ### Containment (R365, R366) -/

/-- R367: a fault of the unit after its test began: its pass no longer counts, and a scheduled unfence loses (R369). -/
def refault (s : State) (cls idx : Nat) : State :=
  let u : UnitId := ⟨BitVec.ofNat 4 cls, BitVec.ofNat 8 idx⟩
  { s with flt := { s.flt with
      stale := s.flt.stale || decide (s.flt.tested = some u)
      pending := s.flt.pending.filter (fun x => x.1 != u) } }

/-- Every fencing sets IRQSTAT.FENCE and writes one entry (R366). -/
def fenceNote (s : State) (kind unit : Nat) (detail : W16) : State := raise (logEv s kind unit detail) 0

def fenceAmp (s : State) (a : Nat) : State :=
  if bit s.ana.ampFen a then refault s 2 a
  else fenceNote (refault { s with ana := { s.ana with ampFen := putBit s.ana.ampFen a true } } 2 a) 0x05 a 0

def fenceElec (s : State) (e : Nat) : State :=
  if bit s.ana.elFen e then refault s 3 e
  else fenceNote (refault { s with ana := { s.ana with elFen := putBit s.ana.elFen e true } } 3 e) 0x06 e
    (BitVec.ofNat 16 (s.ana.verdict.getD e 0).toNat)

def fenceShd (s : State) (k : Nat) : State :=
  if bit s.ana.shdFen k then refault s 4 k
  else fenceNote (refault { s with ana := { s.ana with shdFen := putBit s.ana.shdFen k true } } 4 k) 0x07 k 0

/-- R109, R130: the pipeline of a pass, which leaves the frame in it undone; `why` is 0 for its bank and 1 for checks (R380). -/
def fencePipe (s : State) (p : Nat) (why : W16) : State :=
  if (getPass s p).pipeFen then refault s 7 p
  else fenceNote (refault (setPass s p (fun x => { x with pipeFen := true, pipe := none, saved := [] })) 7 p) 0x0B p why

/-- R401: during EXTEST the carousel, the zone unit and the permit logic are held; `t` is what they would do. -/
def unheld (s t : State) : State := if s.jtag.ir = .extest then s else t

/-- R401: the time in the beat at which the carousel stands: the present one, and during EXTEST the one at which it was held. -/
def carClk (s : State) : Nat := if s.jtag.ir = .extest then s.jtag.heldClk else s.beat.clk

/-- R179: a zone whose bitmap holds an uncorrectable word; EXTEST holds the zone unit (R401). -/
def fenceZone (s : State) (z : Nat) (word : Nat) : State :=
  unheld s (
    if (getZone s z).fen then refault s 9 z
    else fenceNote (refault (setZone s z (fun x => { x with fen := true })) 9 z) 0x10 z (w16 word))

/-- R267: FAULTSUM, one bit per class with a fenced unit. -/
def faultsum (s : State) : W16 :=
  w16 (s.aux.adcFen.toNat
    + 16 * b2n (s.ana.ampFen != 0) + 32 * b2n (s.ana.elFen != 0) + 64 * b2n (s.ana.shdFen != 0)
    + 128 * b2n (s.mem.granFen != 0) + 256 * b2n s.cpu.fen
    + 512 * b2n (s.car.passes.any (fun p => p.pipeFen))
    + 1024 * b2n (s.lnk.ports.any (fun p => p.st == .fenced))
    + 2048 * b2n (s.zon.zones.any (fun z => z.fen)))

/-! ### Permits commanded OFF (R37, R192, R193) -/

/-- The BACKFED partners of other permits no longer include permit k once it turns OFF (R199). -/
def dropPartner (k : Nat) (p : Permit) : Permit := { p with judge := p.judge.map (fun m => putBit m k false) }

/-- Permit k commanded OFF. -/
def permitOff (s : State) (k : Nat) : State :=
  if (getPermit s k).cmd then
    (let s1 := { s with out := { s.out with permits := s.out.permits.map (dropPartner k) } }
     setPermit s1 k (fun p => { p with cmd := false }))
  else s

/-- Every permit commanded OFF. -/
def permitsOff (s : State) : State := [0, 1, 2, 3].foldl permitOff s

/-! ### Roles (R14 to R18) -/

def isManager (s : State) : Bool := s.pwr.role == .managerA || s.pwr.role == .managerB
def isWorker (s : State) : Bool := s.pwr.role == .worker
/-- The device's own address, the managers' as R14 gives them. -/
def ownAddr (s : State) : BitVec 9 :=
  match s.pwr.role with
  | .managerA => 0x1F0
  | .managerB => 0x1F1
  | _ => s.lnk.addr
/-- The other manager's address (R14). -/
def peerAddr (s : State) : BitVec 9 := if s.pwr.role = .managerA then 0x1F1 else 0x1F0
/-- R309: the manager of a side, as a worker knows it: on the A side the one whose parcels come in on L0 (R19). -/
def sideMgr (s : State) (sideB : Bool) : BitVec 9 := if sideB then 0x1F1 else s.lnk.mgr0
/-- R287: DST of the REPORT and BULK parcels that this device builds: the ringmaster; in a manager's own parcels, its own address. -/
def ringAddr (s : State) : BitVec 9 := if isManager s then ownAddr s else sideMgr s s.lnk.ringB

def roleCode : Role → Nat
  | .worker => 0 | .managerB => 1 | .managerA => 2 | .none => 3

/-- R267: ROLE. -/
def roleWord (s : State) : W16 :=
  BitVec.ofNat 16 (roleCode s.pwr.role + 4 * b2n s.lnk.ring + 8 * b2n s.lnk.stby + 16 * (ownAddr s).toNat)

/-- SENSE scans: boot is RUN, the mode is SCAN or WATCH, and SENSE runs (R22). -/
def inRun (s : State) : Bool := s.pwr.boot == .run
def senseRuns (s : State) : Bool := s.pwr.sense == .run
def coreRuns (s : State) : Bool := s.pwr.core == .run
def linkRuns (s : State) : Bool := s.pwr.link == .run

/-! ### Access by registers (R258, R266, R268, R276) -/

/-- The host port answers: VDDIO_H is present and the device is out of reset. -/
def hostAnswers (s : State) : Bool := s.pwr.hostOk && s.pwr.powered && !s.pwr.rstLow && s.pwr.boot != .reset

/-- A host register's source domain is not off (R266). -/
def alive (d : Dom) : Bool := d != .off

/-- R349, R24: scanning and CORE have stopped on the way to HOLD or DORMANT; hold-over beats run. -/
def scanEnded (s : State) : Bool :=
  match s.pwr.change with
  | .entering _ n => decide (n < 4)
  | _ => false

/-- CONFIG and AUX space are reached in RUN, in SCAN and WATCH (R268, R276). -/
def spaceOpen (s : State) : Bool := inRun s && (s.pwr.mode == .scan || s.pwr.mode == .watch)

/-- A write to CONFIG or AUX space. -/
def cfgWrites (s : State) (f : State → State) : State := if spaceOpen s then f s else s

/-- HD as the latest host read drove it (R260). -/
def setHd (s : State) (v : W16) : State := { s with win := { s.win with hd := v } }

/-! ### Zones seated anew (R185) -/

/-- A tracked zone is seated anew: BVALID clears and both counts restart. EXTEST holds the zone unit (R401). -/
def seatZone (s : State) (z : Nat) : State :=
  if rbit (reg s) (0x4800 + 16 * z) 15 then s
  else unheld s (setZone s z (fun x => { x with bvalid := false, evals := 0, tcnt := 0, rcnt := 0 }))

/-- A pass is reseated: BVALID clears and 32 tracking frames follow (R110). A frame that is already in the pipeline is not the first of them: its
rows have met the old baselines. -/
def reseatPass (s : State) (p : Nat) : State :=
  setPass s p (fun x => { x with bvalid := false, seat := if x.pipe.isSome then 33 else 32, retrack := none })

end Sys2Proof.Machine
end

