-- ==== Sys2Proof/Machine/Wake.lean ====
section
/-! DEFINITION. Wake events (R270, R349 to R351) and the start of boot state CLOCKS (R179, R356). -/
namespace Sys2Proof.Machine

def modeCode : Mode → Nat
  | .scan => 0
  | .watch => 1
  | .hold => 2
  | .dormant => 3

def modeOf (n : Nat) : Mode :=
  match n % 4 with
  | 0 => .scan
  | 1 => .watch
  | 2 => .hold
  | _ => .dormant

/-- R179, R356: boot state CLOCKS begins; every zone SRAM word is written with zero and valid check bits. -/
def enterClocks (s : State) : State :=
  { s with pwr := { s.pwr with boot := .clocks }, zon := { s.zon with sram := [], bad := [] } }

/-- R349: the change that a wake or a request from WATCH, HOLD or DORMANT toward REQ begins. -/
def beginWake (s : State) : State :=
  if s.pwr.change != .idle then s
  else match s.pwr.mode, s.pwr.reqMode with
    | .watch, .scan => { s with pwr := { s.pwr with change := .watchToScan, mbusy := true } }
    | .hold, .scan => { s with pwr := { s.pwr with change := .resuming .scan, mbusy := true } }
    | .hold, .watch => { s with pwr := { s.pwr with change := .resuming .watch, mbusy := true } }
    | .dormant, .scan => enterClocks { s with pwr := { s.pwr with change := .resuming .scan, mbusy := true, fromDormant := true } }
    | .dormant, .watch => enterClocks { s with pwr := { s.pwr with change := .resuming .watch, mbusy := true, fromDormant := true } }
    | _, _ => s

/-- R270, R350, R351: a wake by the causes in `bits` acts: it is recorded, REQ takes the mode woken into, and the change begins. One that comes
while the device wakes already is recorded, and REQ stands, which a keyed write may have stored (DEDUCED, log 130). -/
def wakeNow (s : State) (bits : BitVec 5) (tgt : Mode) : State :=
  let cause := (s.pwr.wakecause &&& 0xFCFF) ||| BitVec.ofNat 16 bits.toNat ||| BitVec.ofNat 16 (256 * modeCode s.pwr.mode)
  beginWake (raise { s with pwr := { s.pwr with wakecause := cause, reqMode := if s.pwr.change = .idle then tgt else s.pwr.reqMode } } 5)

/-- R364: the mode that wakes from HOLD and DORMANT other than host writes lead to. -/
def wakeTarget (s : State) : Mode := if rbit (reg s) 0x1603 1 then .watch else .scan

/-- R350, R351: the mode that wakes held during an entry lead to, once it has completed: the host's; SCAN for a gesture and an AX comparator;
WAKECFG.TGT otherwise. -/
def heldTarget (s : State) (w : BitVec 5 × Mode) : Mode :=
  if bit w.1 0 then w.2 else if bit w.1 2 || bit w.1 4 then .scan else wakeTarget s

/-- R350, R351: a wake event of source `b` (bit of WAKECAUSE): held while HOLD or DORMANT is being entered, and nothing in SCAN. -/
def wakeEvent (s : State) (b : Nat) (tgt : Mode) : State :=
  let hold := fun (s : State) =>
    let old := match s.pwr.wakeHeld with
      | none => ((0 : BitVec 5), tgt)
      | some x => x
    { s with pwr := { s.pwr with wakeHeld := some (putBit old.1 b true, if b = 0 then tgt else old.2) } }
  match s.pwr.change with
  | .entering _ _ => hold s
  | .holdToDormant => hold s
  | _ => if s.pwr.mode = .scan then s else wakeNow s (putBit 0 b true) tgt

end Sys2Proof.Machine
end

