-- ==== Sys2Proof/Machine/Geometry.lean ====
section
/-! DEFINITION. What a program's descriptors say: pass types, roles, pins, code groups, node indices, Granary areas, timing
(R13, R40 to R50, R71 to R85, R105), and the checks of staged programs (R41, R75, R106, R117). -/
namespace Sys2Proof.Machine

/-! ### Fields of a pass; `b` is 0 for program A and 1 for program B -/

def passKey (b p w : Nat) : Nat := 0x600 + 0x80 * b + 8 * p + w
def pipeKey (b p w : Nat) : Nat := 0x1000 + 0x100 * b + 16 * p + w
def passType (r : Reader) (b p : Nat) : Nat := rf r (passKey b p 0) 0 4
def isMutual (r : Reader) (b p : Nat) : Bool := passType r b p == 1
def isSelfType (t : Nat) : Bool := decide (2 ≤ t) && decide (t ≤ 7)
def isSelf (r : Reader) (b p : Nat) : Bool := isSelfType (passType r b p)
def isListen (r : Reader) (b p : Nat) : Bool := passType r b p == 8
/-- R73: AXIS, KEY and CLIFF passes run in WATCH. -/
def runsInWatch (t : Nat) : Bool := t == 3 || t == 4 || t == 5
/-- R74: the role of a pin; codes 6 to 15 act as 0. -/
def roleOf (r : Reader) (b p pin : Nat) : Nat :=
  let c := rf r (0x800 + 0x400 * b + 64 * p + pin / 4) (4 * (pin % 4)) 4
  if c ≤ 5 then c else 0
def pinsWith (r : Reader) (b p role : Nat) : List Nat := (List.range 256).filter (fun pin => roleOf r b p pin == role)
def txPins (r : Reader) (b p : Nat) : List Nat := pinsWith r b p 1
def rxPins (r : Reader) (b p : Nat) : List Nat := pinsWith r b p 2
/-- R105: T is 1 for a self pass. -/
def rowCount (r : Reader) (b p : Nat) : Nat := if isMutual r b p then (txPins r b p).length else 1
def colCount (r : Reader) (b p : Nat) : Nat := (rxPins r b p).length
def nodeCount (r : Reader) (b p : Nat) : Nat := rowCount r b p * colCount r b p
/-- R71: the passes of a program up to its first NONE. -/
def passList (r : Reader) (b : Nat) : List Nat := (List.range 16).takeWhile (fun p => passType r b p != 0)

/-- R78: the code size n, its log2, the groups of a pass and its steps per group. -/
def codeLog (r : Reader) (b p : Nat) : Nat := rf r (passKey b p 0) 4 2 + 3
def codeSize (r : Reader) (b p : Nat) : Nat := 2 ^ codeLog r b p
def groupCount (r : Reader) (b p : Nat) : Nat :=
  if isMutual r b p then ceilDiv (txPins r b p).length (codeSize r b p - 1) else 1
def stepsPerGroup (r : Reader) (b p : Nat) : Nat := if isMutual r b p then codeSize r b p - 1 else 1
/-- R78: the group of row t. -/
def groupOfRow (r : Reader) (b p t : Nat) : Nat := if isMutual r b p then t / (codeSize r b p - 1) else 0
def slotOfRow (r : Reader) (b p t : Nat) : Nat := if isMutual r b p then t % (codeSize r b p - 1) + 1 else 1
/-- The rows of group g. -/
def rowsOfGroup (r : Reader) (b p g : Nat) : List Nat := (List.range (rowCount r b p)).filter (fun t => groupOfRow r b p t == g)
/-- R79: the code sign s(j, c). -/
def codeNeg (j c : Nat) : Bool := popcount (Nat.land j c) 7 % 2 == 1
def codeSign (j c : Nat) : Int := if codeNeg j c then -1 else 1

/-- R13, R41: the amplifier of a pin, its receive group and its converter. -/
def ampOfPin (r : Reader) (pin : Nat) : Nat := 16 * (pin / 32) + rf r (0x200 + 2 * pin) 0 4
def adcOfPin (pin : Nat) : Nat := pin / 64
/-- Converters, as the receive groups they serve (R13). -/
def adcOfAmp (a : Nat) : Nat := a / 32

/-- R42, R156: node (t, r) uses a fenced electrode, amplifier or converter. -/
def pinFenced (s : State) (pin : Nat) : Bool := bit s.ana.elFen pin
def rxFenced (s : State) (r : Reader) (pin : Nat) : Bool :=
  bit s.ana.elFen pin || bit s.ana.ampFen (ampOfPin r pin) || bit s.aux.adcFen (adcOfPin pin)
def nodeFenced (s : State) (r : Reader) (b p t c : Nat) : Bool :=
  (isMutual r b p && pinFenced s ((txPins r b p).getD t 0)) || rxFenced s r ((rxPins r b p).getD c 0)

/-! ### Timing, in SENSE clocks of 5 ns -/

/-- R76: the half period of frequency index k. -/
def halfPeriod (r : Reader) (k : Nat) : Nat :=
  let h := rf r (0x508 + k) 0 11
  if h < 25 then 25 else if 2000 < h then 2000 else h
/-- R46, R47: the edge code in use at frequency k: codes above 19 act as 19, clipped so that 35 ns and the edge fit the half period. -/
def edgeCode (r : Reader) (b p k : Nat) : Nat :=
  let c := min (rf r (passKey b p 1) 0 5) 19
  let room := halfPeriod r k - 7
  min c (room / 4 - 1)
/-- R47: the programmed code is clipped at frequency k. -/
def slewClipped (r : Reader) (b p k : Nat) : Bool := decide (edgeCode r b p k < min (rf r (passKey b p 1) 0 5) 19)
def edgeClocks (r : Reader) (b p k : Nat) : Nat := 4 * (edgeCode r b p k + 1)
/-- R77: edges of a burst. -/
def edgeCount (r : Reader) (b p : Nat) : Nat := 2 * (rf r (passKey b p 1) 5 6 + 1)
/-- R83: the nominal length of a step at frequency k. -/
def stepClocks (r : Reader) (b p k : Nat) : Nat := 8 + edgeCount r b p * halfPeriod r k + 8 + 32
/-- R82: the listening interval. -/
def listenClocks (r : Reader) (b p : Nat) : Nat :=
  let l := rf r (passKey b p 4) 0 8
  (if l < 8 then 8 else if 128 < l then 128 else l) * 100
/-- R83: nominal length of a group or self step or LISTEN pass, and of a pass. -/
def groupClocks (r : Reader) (b p k : Nat) : Nat :=
  if isListen r b p then 8 + listenClocks r b p else stepsPerGroup r b p * stepClocks r b p k
def passClocks (r : Reader) (b p k : Nat) : Nat := groupCount r b p * groupClocks r b p k
/-- R84: the slot offset. -/
def slotClocks (r : Reader) (b p : Nat) : Nat := 100 * rf r (passKey b p 3) 0 16
/-- R83, R87: the nominal length of a program, slot waits included, over the passes that `runs` admits. -/
def programClocks (r : Reader) (b : Nat) (fq : Nat → Nat) (runs : Nat → Bool) : Nat :=
  ((passList r b).filter runs).foldl (fun e p => max e (slotClocks r b p) + passClocks r b p (fq p)) 0
/-- R85: the guard time. -/
def guardClocks (r : Reader) : Nat := 200 * max 1 (rf r 0x500 8 5)

/-! ### Granary areas (R105) -/

def gbase (r : Reader) (b p : Nat) : Nat := 256 * rf r (pipeKey b p 0) 0 12
/-- W' of R105. -/
def evenCount (r : Reader) (b p : Nat) : Nat := 2 * ceilDiv (nodeCount r b p) 2
def rawOff (i : Nat) : Nat := 64 + 4 * i
def baseOff (r : Reader) (b p i : Nat) : Nat := 64 + 4 * nodeCount r b p + 4 * i
def deltaOff (r : Reader) (b p img i : Nat) : Nat := 64 + 8 * nodeCount r b p + 2 * evenCount r b p * img + 2 * i
def checkOff (r : Reader) (b p t : Nat) : Nat := 64 + 8 * nodeCount r b p + 4 * evenCount r b p + 12 * t
def regionOff (r : Reader) (b p : Nat) : Nat := checkOff r b p (rowCount r b p)
def areaBytes (r : Reader) (b p : Nat) : Nat := regionOff r b p + (if isMutual r b p then 512 else 0)
def areaLo (r : Reader) (b p : Nat) : Nat := gbase r b p
def areaHi (r : Reader) (b p : Nat) : Nat := gbase r b p + areaBytes r b p
/-- The pass owns an area: every type but LISTEN (R105). -/
def ownsArea (r : Reader) (b p : Nat) : Bool := passType r b p != 8
/-- R109: the area of the pass lies partly or wholly in Granary bank k. -/
def inBank (r : Reader) (b p k : Nat) : Bool :=
  ownsArea r b p && decide (areaLo r b p < 0x10000 * (k + 1)) && decide (0x10000 * k < areaHi r b p)

/-- The program in force. -/
def actProg (s : State) : Nat := b2n s.car.act

/-- R107, R109: the header's PASSFEN bit is set while the header lies in a usable bank. -/
def headerFen (s : State) (p : Nat) : State :=
  let a := gbase (reg s) (actProg s) p
  if bit s.mem.granFen (a / 0x10000) || !(ownsArea (reg s) (actProg s) p) then s
  else wr32 s (granBase + a + 4) (rd32 s (granBase + a + 4) ||| (1 <<< 25))

/-- R109, R130: the pipeline of a pass is fenced. -/
def pipeFence (s : State) (p : Nat) (why : W16) : State :=
  if (getPass s p).pipeFen then fencePipe s p why else fencePipe (headerFen s p) p why

/-- R109: fences Granary bank k, and the pipelines of the passes in it. -/
def fenceBank (s : State) (k : Nat) : State :=
  if bit s.mem.granFen k then refault s 5 k
  else
    (let s1 := { s with mem := { s.mem with granFen := putBit s.mem.granFen k true } }
     let ps := (passList (reg s) (actProg s)).filter (fun p => inBank (reg s) (actProg s) p k)
     let s2 := ps.foldl (fun s p => pipeFence s p 0) s1
     fenceNote (refault s2 5 k) 0x13 k 0)

/-! ### Checks of a staged program -/

/-- R41: two RX pins of the pass share an amplifier. -/
def sharedAmp (r : Reader) (b p : Nat) : Bool :=
  let as := (rxPins r b p).map (ampOfPin r)
  as.eraseDups.length != as.length

/-- R41, R75, R117: pass p of the staged program is invalid. -/
def badPass (r : Reader) (b p : Nat) : Bool :=
  let t := passType r b p
  let rx := rxPins r b p
  let tx := txPins r b p
  let mask := rf r (passKey b p 2) 0 8
  decide (9 ≤ t) || rx.isEmpty || sharedAmp r b p
  || (isSelfType t && !tx.isEmpty)
  || (t == 1 && (tx.isEmpty || decide (126 < tx.length)))
  || mask == 0 || !(mask.testBit (rf r (passKey b p 2) 8 3))
  || (t == 8 && (!tx.isEmpty || !(pinsWith r b p 3).isEmpty || decide (4 < rx.length) || rx.any (fun e => decide (e < 128) || decide (191 < e))))
  || (t == 8 && (passList r b).any (fun q => q != p && isListen r b q))
  || (t == 1 && rbit r (passKey b p 4) 12 &&
        (let q := rf r (passKey b p 4) 8 4
         !(decide (q < p) && passType r b q == 3)))
  || (t == 1 && rbit r (pipeKey b p 1) 13 &&
        (let q := rf r (pipeKey b p 7) 0 4
         q == p || !((passList r b).contains q) || isMutual r b q || isListen r b q))

/-- R106: the pass's area extends beyond 1 MiB or overlaps the area of another pass of its program; both passes of a pair fail. -/
def badArea (r : Reader) (b p : Nat) : Bool :=
  ownsArea r b p &&
  (decide (0x100000 < areaHi r b p) ||
   (passList r b).any (fun q => q != p && ownsArea r b q && decide (areaLo r b q < areaHi r b p) && decide (areaLo r b p < areaHi r b q)))

/-- The failing passes of a staged program. -/
def badPasses (r : Reader) (b : Nat) : List Nat := (passList r b).filter (fun p => badPass r b p || badArea r b p)

/-- The source pass of a zone, and whether the zone is enabled, is NODES, AUX or ELECTRODE (R178). -/
def zoneKey (z w : Nat) : Nat := 0x4800 + 16 * z + w
def zoneKind (r : Reader) (z : Nat) : Nat := rf r (zoneKey z 0) 0 2
def zonePass (r : Reader) (z : Nat) : Nat := rf r (zoneKey z 0) 2 4
def zoneIdx (r : Reader) (z : Nat) : Nat := rf r (zoneKey z 0) 6 7
def zonePeak (r : Reader) (z : Nat) : Bool := rbit r (zoneKey z 0) 13
def zoneFall (r : Reader) (z : Nat) : Bool := rbit r (zoneKey z 0) 14
def zoneFixed (r : Reader) (z : Nat) : Bool := rbit r (zoneKey z 0) 15
def regInt (r : Reader) (key : Nat) : Int := (r key).toInt

/-- R184: the staged zone is invalid; `b` is the staged program that CARCTL.SEL puts in force. -/
def badZone (r : Reader) (b z : Nat) : Bool :=
  let k := zoneKind r z
  let p := zonePass r z
  let onPass := k == 1 || k == 3
  k != 0 &&
  (decide (regInt r (zoneKey z 3) ≤ regInt r (zoneKey z 4))
   || (zonePeak r z && decide (regInt r (zoneKey z 5) ≤ regInt r (zoneKey z 6)))
   || (zonePeak r z && k == 2)
   || (onPass && (!((passList r b).contains p) || isListen r b p))
   || (k == 3 && (isMutual r b p || decide (colCount r b p ≤ zoneIdx r z))))

/-- R340: the receive ring extends beyond data RAM, or has more slots than RXRCFG allows. -/
def badRing (r : Reader) : Bool :=
  let n := rf r 0x1508 0 9
  decide (481 < n) || (n != 0 && decide (0x20000 < 16 * rf r 0x1509 0 13 + 272 * n))

end Sys2Proof.Machine
end

