-- ==== Sys2Proof/Machine/Parcels.lean ====
section
/-! DEFINITION. Parcels: the header, the CRC and its mask (R287, R288, R307), the packet a queue stores (R284), and the
ALERTs of a worker (R196, R309, R310). -/
namespace Sys2Proof.Machine

/-- The parcel TYPE codes of R309. -/
def tyReport : BitVec 6 := 0x01
def tyBulk : BitVec 6 := 0x02
def tyAlert : BitVec 6 := 0x03
def tyFence : BitVec 6 := 0x04
def tyFenceack : BitVec 6 := 0x05
def tyBeat : BitVec 6 := 0x06
def tyGrant : BitVec 6 := 0x07
def tyHello : BitVec 6 := 0x08
def tyEnum : BitVec 6 := 0x09
def tyWinreq : BitVec 6 := 0x0A
def tyWinrsp : BitVec 6 := 0x0B
def tyBootimg : BitVec 6 := 0x0C
def tyHeartbeat : BitVec 6 := 0x0D
def tyTakeover : BitVec 6 := 0x0E

/-- R309: TYPE 0x00 and 0x0F to 0x3F are undefined. -/
def typeDefined (t : BitVec 6) : Bool := decide (1 ≤ t.toNat) && decide (t.toNat ≤ 14)

/-- R309, R313: the types that are sequenced. -/
def isSequenced (t : BitVec 6) : Bool := t != tyAlert && t != tyBeat && t != tyGrant

/-- R309: the priority of each type. -/
def priOf (t : BitVec 6) : BitVec 2 :=
  if t = tyAlert then 3
  else if t = tyReport ∨ t = tyWinreq ∨ t = tyWinrsp then 1
  else if t = tyBulk ∨ t = tyBootimg then 0
  else 2

/-- R287: the header as one 64-bit number. -/
def headerNat (p : Parcel) : Nat :=
  p.typ.toNat * 2 ^ 58 + p.pri.toNat * 2 ^ 56 + p.src.toNat * 2 ^ 47 + p.dst.toNat * 2 ^ 38 + p.epoch.toNat * 2 ^ 30
    + p.linkseq.toNat * 2 ^ 22 + p.len.toNat * 2 ^ 14 + p.frameq.toNat

/-- R287: the eight header bytes, most significant first. -/
def headerBytes (p : Parcel) : List Byte := (List.range 8).map (fun i => BitVec.ofNat 8 (headerNat p / 256 ^ (7 - i)))

/-- R287: the parcel that eight header bytes and a payload spell. -/
def parseParcel (bs : List Byte) : Parcel :=
  let h := beAt bs 0 8
  { typ := BitVec.ofNat 6 (h / 2 ^ 58), pri := BitVec.ofNat 2 (h / 2 ^ 56), src := BitVec.ofNat 9 (h / 2 ^ 47)
    dst := BitVec.ofNat 9 (h / 2 ^ 38), epoch := BitVec.ofNat 8 (h / 2 ^ 30), linkseq := BitVec.ofNat 8 (h / 2 ^ 22)
    len := BitVec.ofNat 8 (h / 2 ^ 14), frameq := BitVec.ofNat 14 h, payload := bs.drop 8 }

/-- R288: the parcel CRC, with LINKSEQ counted as 0x00. -/
def parcelCrc (p : Parcel) : W32 := crc32 (headerBytes { p with linkseq := 0 } ++ p.payload)

/-- R307: the CRC as the line carries it, each byte XORed with LINKSEQ. -/
def maskedCrc (p : Parcel) : W32 := parcelCrc p ^^^ BitVec.ofNat 32 (p.linkseq.toNat * 0x01010101)

/-- R284: a packet's bytes after QHDR. -/
def packetBytes (p : Parcel) : List Byte := headerBytes p ++ p.payload ++ be32 (parcelCrc p)

/-- A parcel this device builds (R287): SRC its own address, EPOCH the one in force, LINKSEQ filled in when it is sent. -/
def mkParcel (s : State) (t : BitVec 6) (dst : BitVec 9) (frameq : BitVec 14) (payload : List Byte) : Parcel :=
  { typ := t, pri := priOf t, src := ownAddr s, dst := dst, epoch := s.beat.epoch, linkseq := 0
    len := BitVec.ofNat 8 payload.length, frameq := frameq, payload := payload }

/-- R287: FRAMEQ. -/
def frameQ (s : State) : BitVec 14 := BitVec.ofNat 14 s.beat.frameSeq.toNat

/-- R205, R310: the trip states of Z31 to Z0. -/
def tripWord (s : State) : W32 :=
  BitVec.ofNat 32 ((List.range 32).foldl (fun a z => a + b2n (getZone s z).trip * 2 ^ z) 0)

/-- R309: bit k of the ALERT's FRAMEQ[13:10]: PRMk has a latched fault. -/
def faultNibble (s : State) : Nat := (List.range 4).foldl (fun a k => a + b2n ((getPermit s k).fault != 0) * 2 ^ k) 0

/-- R309, R310: this worker's ALERT to the manager of a side. -/
def alertParcel (s : State) (sideB : Bool) : Parcel :=
  mkParcel s tyAlert (sideMgr s sideB)
    (BitVec.ofNat 14 (faultNibble s * 1024 + s.beat.frameSeq.toNat % 1024)) (be32 (tripWord s))

/-- R19: port k is an uplink of this worker: L0, and L1 once a BEAT or a GRANT has come in there. -/
def isUplink (s : State) (k : Nat) : Bool :=
  isWorker s && (k == 0 || (k == 1 && ((getPort s 1).granted.isSome || (getPort s 1).beatSeen)))

/-- The ports that are upstream ends (R302). -/
def isDownlink (s : State) (k : Nat) : Bool := !(isUplink s k) && (isManager s || k != 0)

def portEnabled (s : State) (k : Nat) : Bool := rbit (reg s) 0x1500 k

/-- R339, R321, R393: LINK runs again: fill on each enabled downlink that is not fenced; a worker at depth 12 keeps its downlinks DOWN. After a
strap fault the ports send nothing (R15, R336). -/
def fillLine (s : State) : List LineItem :=
  if s.pwr.boot == .strapflt then [] else ([0, 1, 2, 3, 4, 5].filter (fun k => isDownlink s k && portEnabled s k && (getPort s k).st != .fenced
    && (isManager s || decide (s.lnk.depth < 12)))).map LineItem.fill

/-- R314: an ALERT waits at a port; a newer one replaces the waiting one of its source. -/
def putAlert (s : State) (k : Nat) (a : Parcel) : State :=
  setPort s k (fun p => { p with alerts := p.alerts.filter (fun o => o.src != a.src) ++ [a] })

/-- R196: a worker readies an ALERT at every uplink. -/
def sendAlert (s : State) : State :=
  if isWorker s then
    (let s1 := putAlert s 0 (alertParcel s false)
     let s2 := if isUplink s 1 then putAlert s1 1 (alertParcel s true) else s1
     { s2 with out := { s2.out with sinceAlert := 0 } })
  else s

end Sys2Proof.Machine
end

