-- ==== Sys2Proof/Machine/Zones.lean ====
section
/-! DEFINITION. The zone unit (R36, R178 to R191): sources, metrics, baselines, trip and release, and the permits that follow
from them (R37, R192, R197). -/
namespace Sys2Proof.Machine

/-! ### Remote entries of a manager (R197) -/

def remoteOf (s : State) (dev : BitVec 9) : Option Remote := s.out.remotes.find? (fun r => r.dev == dev)

/-- R197, R33: the device is enumerated and not behind a fenced port. -/
def reachable (s : State) (dev : BitVec 9) : Bool :=
  s.lnk.members.any (fun m => m.addr == dev && (getPort s m.port).st != .fenced)

/-- R204: the remote timeout in beats; 0 and 1 act as 2. -/
def remoteLimit (s : State) : Nat := max 2 (rf (reg s) 0x4A0A 8 8)

def entryKey (e : Nat) : Nat := 0x4B00 + 2 * e
def entryEnabled (s : State) (e : Nat) : Bool := rbit (reg s) (entryKey e) 15
def entryDev (s : State) (e : Nat) : BitVec 9 := BitVec.ofNat 9 (rf (reg s) (entryKey e) 0 9)
def entryZone (s : State) (e : Nat) : Nat := rf (reg s) (entryKey e) 9 5

/-- R197: an enabled entry counts as tripped. -/
def entryTripped (s : State) (e : Nat) : Bool :=
  match remoteOf s (entryDev s e) with
  | none => true
  | some r => r.trips.getLsbD (entryZone s e) || decide (remoteLimit s ≤ r.age) || !(reachable s (entryDev s e))

/-- R197: RTRIP's bit of an entry: tripped or disabled. -/
def rtripBit (s : State) (e : Nat) : Bool := !(entryEnabled s e) || entryTripped s e

/-- The enabled entries of a manager that name permit k. -/
def entriesOf (s : State) (k : Nat) : List Nat :=
  if isManager s then (List.range 256).filter (fun e => entryEnabled s e && rbit (reg s) (entryKey e + 1) k) else []

/-! ### Permits ON (R37, R192) -/

/-- R192: the local zones mapped to permit k. -/
def zonesOf (s : State) (k : Nat) : List Nat :=
  (List.range 32).filter (fun z => rbit (reg s) (0x4A00 + 2 * k + z / 16) (z % 16))

/-- R193, R351: neither HOLD nor DORMANT is in force, requested or being entered. -/
def sleepAsked (s : State) : Bool :=
  s.pwr.reqMode == .hold || s.pwr.reqMode == .dormant ||
  (match s.pwr.change with
   | .entering _ _ => true
   | .holdToDormant => true
   | .resuming _ => true
   | _ => false)

/-- R37 but for the count of R192: everything else that lets permit k be ON. -/
def permitAllowed (s : State) (k : Nat) : Bool :=
  s.pwr.powered && s.pwr.vfldOk && !s.pwr.refStop && inRun s
  && (s.pwr.mode == .scan || s.pwr.mode == .watch) && !(sleepAsked s)
  && !((zonesOf s k).isEmpty && (entriesOf s k).isEmpty)
  && (zonesOf s k).all (fun z => !(getZone s z).trip)
  && (entriesOf s k).all (fun e => !(entryTripped s e))
  && !(getPermit s k).force && (getPermit s k).fault == 0
  && s.jtag.ir != .extest

/-- R192: the frames, each with the entries untripped, that remote entry e counts after this moment: one more for the present frame, or none. -/
def entryFrame (s : State) (e : Nat) (x : EntryCount) : EntryCount :=
  if !(entryEnabled s e) || entryTripped s e then {} else if x.seen then x else { clear := min 256 (x.clear + 1), seen := true }

def entriesFrame (s : State) : State := { s with out := { s.out with entries := s.out.entries.mapIdx (entryFrame s) } }

/-- R192: what is mapped to permit k: for each zone and entry, its consecutive frames and whether the present frame is among them. -/
def mappedCounts (s : State) (k : Nat) : List EntryCount :=
  (zonesOf s k).map (fun z => ⟨(getZone s z).clear, (getZone s z).seen⟩) ++ (entriesOf s k).map (fun e => s.out.entries.getD e {})

/-- R192: the consecutive frames, up to the latest in which all that is mapped to permit k has been evaluated, in which all was untripped. -/
def clearFrames (s : State) (k : Nat) : Nat :=
  let l := mappedCounts s k
  let all := l.all (fun x => x.seen)
  l.foldl (fun n x => min n (if all then x.clear else x.clear - b2n x.seen)) 256

/-- R187, R352, R353: whatever is mapped to them, permits stay OFF for the first 32 frames after SENSE starts. -/
def permitFrames (s : State) : Bool := decide (33 ≤ s.beat.scanFrames)

/-- R192: permit k has its RDLY + 1 clear frames, the frames of R352 and everything else of R37. -/
def permitReady (s : State) (k : Nat) : Bool :=
  decide (rf (reg s) 0x4A0A 0 8 + 1 ≤ clearFrames s k) && permitFrames s && permitAllowed s k

/-- Permit k commanded ON when it is ready. -/
def permitTry (s : State) (k : Nat) : State :=
  if permitReady s k then setPermit s k (fun p => { p with cmd := true }) else s

/-- R192: all zones and entries mapped to permit k are untripped, and there is one. -/
def allClear (s : State) (k : Nat) : Bool :=
  !((zonesOf s k).isEmpty && (entriesOf s k).isEmpty)
  && (zonesOf s k).all (fun z => !(getZone s z).trip) && (entriesOf s k).all (fun e => !(entryTripped s e))

/-- R192: a permit with a tripped zone or entry mapped to it is OFF; one that is ready turns ON. -/
def permitCount (s : State) (k : Nat) : State := if allClear s k then permitTry s k else permitOff s k

/-- R192 for every permit, after zones or entries have been evaluated. -/
def permitsCount (s : State) : State := unheld s ([0, 1, 2, 3].foldl permitCount (entriesFrame s))

/-! ### Zone state (R188) -/

/-- R188, R191, R192, R196: an untripped zone trips. -/
def tripZone (s : State) (z : Nat) : State :=
  if (getZone s z).trip then s
  else
    (let s1 := setZone s z (fun x => { x with trip := true, tripcnt := satInc x.tripcnt, tcnt := 0, rcnt := 0, clear := 0
                                              latched := rbit (reg s) (zoneKey z 1) 15 })
     let s2 := raise s1 3
     let s3 := [0, 1, 2, 3].foldl (fun s k => if (zonesOf s k).contains z then permitOff s k else s) s2
     sendAlert s3)

/-- R188, R196: a tripped zone releases; a frame in which it has been evaluated is its first clear one (R192). -/
def releaseZone (s : State) (z : Nat) : State :=
  if (getZone s z).trip then
    sendAlert (setZone s z (fun x => { x with trip := false, tcnt := 0, rcnt := 0, latched := false, unmeas := false, clear := b2n x.seen }))
  else s

/-! ### Sources (R178 to R181) -/

/-- R179: the node indices of a NODES zone, or the electrode of an ELECTRODE zone. -/
def zoneNodes (s : State) (z : Nat) : List Nat :=
  let r := reg s
  if zoneKind r z == 3 then [zoneIdx r z]
  else (List.range (nodeCount r (actProg s) (zonePass r z))).filter
    (fun i => bit (sget zero16 s.zon.sram (1024 * z + i / 16)) (i % 16))

/-- The zone's pass. -/
def zoneSrc (s : State) (z : Nat) : Pass := getPass s (zonePass (reg s) z)

def nodeOf (x : Pass) (i : Nat) : Node := x.nodes.getD i {}

/-- R115: the sign of a pass. -/
def passSign (r : Reader) (b p : Nat) : Int :=
  let m := isMutual r b p
  if m != rbit r (pipeKey b p 1) 4 then -1 else 1

/-- R171: channel ch cannot be measured. -/
def auxUnmeasurable (s : State) (ch : Nat) : Bool :=
  decide (max 1 (rf (reg s) (0x10010 + 8 * ch) 12 4) < (s.aux.age.getD ch 0).toNat) || s.aux.noAdc
  || (s.aux.cal.busy && s.aux.cal.active && s.aux.cal.ch == ch)

/-- R178: the value of channel ch in 1/16 counts. -/
def auxValue (s : State) (ch : Nat) : Int :=
  let v := s.aux.last.getD ch 0
  if rbit (reg s) (0x10010 + 8 * ch) 0 then v.toNat else v.toInt

/-- R180: the sum S over the zone's unfenced nodes, or the channel's value. -/
def zoneSum (s : State) (z : Nat) : Int :=
  if zoneKind (reg s) z == 2 then auxValue s (zoneIdx (reg s) z % 8)
  else (((zoneNodes s z).map (nodeOf (zoneSrc s z))).filter (fun n => !n.fen)).foldl (fun a n => a + n.n) 0

/-- R185: the integer part bz of the baseline in use. -/
def zoneBz (s : State) (z : Nat) : Int :=
  let r := reg s
  if zoneFixed r z then signed ((r (zoneKey z 7)).toNat + 65536 * (r (zoneKey z 8)).toNat) 32 else (getZone s z).base >>> 8

/-- R180: the SUM metric. -/
def sumMetric (s : State) (z : Nat) (bz : Int) : Int :=
  let r := reg s
  let sg := if zoneKind r z == 2 then 1 else passSign r (actProg s) (zonePass r z)
  limit (-32768) 32767 (roundShift (sg * (zoneSum s z - bz)) (rf r (zoneKey z 1) 0 5))

/-- R116: the delta of node i in the delta image written in this frame. -/
def deltaAt (s : State) (p i : Nat) : Int :=
  let r := reg s
  let b := actProg s
  signed (rd16 s (granBase + gbase r b p + deltaOff r b p (b2n (getPass s p).cur) i)).toNat 12

/-- R181: the PEAK metric; 0 without unfenced nodes. -/
def peakMetric (s : State) (z : Nat) : Int :=
  let p := zonePass (reg s) z
  let ds := (((zoneNodes s z).filter (fun i => !(nodeOf (getPass s p) i).fen)).map (deltaAt s p))
  match ds with
  | [] => 0
  | d :: t => t.foldl (fun a x => if zoneFall (reg s) z then min a x else max a x) d

/-- R183: a PEAK zone is evaluated by its SUM metric. -/
def fallback (s : State) (z : Nat) : Bool :=
  let p := zonePass (reg s) z
  zonePeak (reg s) z &&
  (!(coreRuns s) || s.pwr.mode == .watch || (getPass s p).pipeFen || (getPass s p).ovr || !(getPass s p).bvalid
   || (List.range 16).any (fun k => bit s.mem.granFen k && inBank (reg s) (actProg s) p k))

/-- R182: the evaluated level e, by the metric in force. -/
def zoneLevel (s : State) (z : Nat) (bz : Int) : Int :=
  let m := if zonePeak (reg s) z && !(fallback s z) then peakMetric s z else sumMetric s z bz
  if zoneFall (reg s) z then -m else m

/-- R183: the thresholds in force. -/
def zoneOn (s : State) (z : Nat) : Int := regInt (reg s) (zoneKey z (if fallback s z then 5 else 3))
def zoneOff (s : State) (z : Nat) : Int := regInt (reg s) (zoneKey z (if fallback s z then 6 else 4))

/-! ### The conditions of R36 -/

/-- R190: the fenced share exceeds FENLIM / 16; R181: or a PEAK zone has no unfenced node. -/
def shareExceeded (s : State) (z : Nat) : Bool :=
  let ns := (zoneNodes s z).map (nodeOf (zoneSrc s z))
  (zonePeak (reg s) z && ns.all (fun n => n.fen)) || decide (rf (reg s) (zoneKey z 1) 9 4 * ns.length < 16 * (ns.filter (fun n => n.fen)).length)

/-- R36, R179, R171: the zone is disabled, fenced, its source does not run in the mode or cannot be measured. -/
def unmeasurable (s : State) (z : Nat) : Bool :=
  let r := reg s
  let k := zoneKind r z
  k == 0 || (getZone s z).fen
  || (k == 2 && auxUnmeasurable s (zoneIdx r z % 8))
  || (k != 2 && ((s.pwr.mode == .watch && !(runsInWatch (passType r (actProg s) (zonePass r z)))) || shareExceeded s z))

/-- R189: the zone has been held for STLIM + 1 consecutive frames. -/
def heldOut (s : State) (z : Nat) : Bool := decide (rf (reg s) (zoneKey z 1) 13 2 + 1 ≤ (getZone s z).hcnt)

/-- R36: some condition trips the zone now. -/
def r36 (s : State) (z : Nat) : Bool := unmeasurable s z || !(getZone s z).bvalid || heldOut s z

/-- R189, R371: a node lies in a group of `stale`, or in one of `skip` while SKIPOK is 0. -/
def zoneHeldBy (s : State) (z : Nat) (stale skip : BitVec 18) : Bool :=
  let r := reg s
  let b := actProg s
  let p := zonePass r z
  let c := colCount r b p
  zoneKind r z != 2 &&
  (zoneNodes s z).any (fun i =>
    let g := groupOfRow r b p (i / max c 1)
    bit stale g || (bit skip g && !(rbit r (zoneKey z 2) 12)))

/-- R189: the zone is held by the marks of the frame in progress. -/
def zoneHeld (s : State) (z : Nat) : Bool :=
  let x := getPass s (zonePass (reg s) z)
  zoneHeldBy s z (x.stale ||| x.zstale) x.skip

/-! ### One evaluation (R185 to R189) -/

/-- R185: the baseline while it is being seated. -/
def seatBase (x : Zone) (sum : Int) : Int := if x.evals = 0 then sum * 256 else x.base + ((sum * 256 - x.base) >>> 2)

/-- R185, R187: BVALID after this evaluation. -/
def seatDone (s : State) (z : Nat) (evals : Nat) : Bool :=
  decide (32 ≤ s.beat.scanFrames) && (zoneFixed (reg s) z || decide (32 ≤ evals))

/-- R185: an evaluation of a zone whose baseline is being seated. -/
def evalSeating (s : State) (z : Nat) : State :=
  let sum := zoneSum s z
  let s1 := setZone s z (fun x => { x with base := seatBase x sum })
  let e := zoneLevel s1 z (zoneBz s1 z)
  setZone s1 z (fun x => { x with metric := e, evals := x.evals + 1, held := false, hcnt := 0, fb := fallback s z
                                  bvalid := seatDone s z (x.evals + 1), unmeas := true })

/-- R186: the tracked baseline after an evaluation that leaves the zone untripped at or below its off threshold. -/
def trackZone (s : State) (z : Nat) (e : Int) : State :=
  let rate := rf (reg s) (zoneKey z 1) 5 4
  if !(getZone s z).trip && decide (e ≤ zoneOff s z) && !(zoneFixed (reg s) z) && rate != 0 then
    (let sum := zoneSum s z
     setZone s z (fun x => { x with base := x.base + ((sum * 256 - x.base) >>> rate) }))
  else s

/-- R188 steps 1 and 2: the counts, the trip and the release. -/
def countZone (s : State) (z : Nat) (e : Int) : State :=
  let r := reg s
  let x := getZone s z
  if x.trip then
    (let n := if e ≤ zoneOff s z then x.rcnt + 1 else 0
     let s1 := setZone s z (fun y => { y with rcnt := n, unmeas := false, latched := rbit r (zoneKey z 1) 15 })
     if decide (rf r (zoneKey z 2) 4 8 + 1 ≤ n) && !(rbit r (zoneKey z 1) 15) then releaseZone s1 z else s1)
  else
    (let n := if zoneOn s z ≤ e then x.tcnt + 1 else 0
     let s1 := setZone s z (fun y => { y with tcnt := n })
     if rf r (zoneKey z 2) 0 4 + 1 ≤ n then tripZone s1 z else s1)

/-- R188, R189: an evaluation of a zone with a valid baseline and no condition of R36. -/
def evalValid (s : State) (z : Nat) : State :=
  let e := zoneLevel s z (zoneBz s z)
  let s1 := setZone s z (fun x => { x with metric := e, held := false, hcnt := 0, fb := fallback s z })
  trackZone (countZone s1 z e) z e

/-- R188 step 3: a condition of R36 trips the zone; its baseline is still seated where that is under way and the source is measured. -/
def evalR36 (s : State) (z : Nat) (held : Bool) : State :=
  let s1 := tripZone s z
  let s2 := setZone s1 z (fun x => { x with unmeas := true, rcnt := 0, tcnt := 0 })
  if !held && !(getZone s z).bvalid && zoneKind (reg s) z != 0 then evalSeating s2 z
  else if !held then setZone s2 z (fun x => { x with metric := zoneLevel s2 z (zoneBz s2 z), fb := fallback s2 z })
  else s2

/-- R192: the zone has been evaluated in this frame; the frame counts when it leaves the zone untripped. -/
def zoneSeen (s : State) (z : Nat) : State :=
  setZone s z (fun x => { x with seen := true, clear := if x.trip then 0 else if x.seen then x.clear else min 256 (x.clear + 1) })

/-- R36, R171, R204: the zone's trip under R36 shows as one: its source cannot be measured. A disabled zone (KIND 0) has no source, and counts as
tripped under R178, not under R36. -/
def zoneUnmeas (s : State) (z : Nat) : Bool := zoneKind (reg s) z != 0

/-- One evaluation of zone z, held or not (R188, R189). A condition of R36 overrides a hold: the evaluation is then not a held one (log 38). -/
def evalZone (s : State) (z : Nat) (held : Bool) : State :=
  let s0 := setZone s z (fun x => { x with inFrame := true, since := 0, held := held, hcnt := if held then x.hcnt + 1 else x.hcnt })
  if unmeasurable s0 z || !(getZone s0 z).bvalid then setZone (evalR36 s0 z held) z (fun x => { x with held := false, hcnt := 0 })
  else if held then (if heldOut s0 z then evalR36 s0 z true else s0)
  else evalValid s0 z

/-- R178: an evaluation that counts for the permits. -/
def evalSeen (s : State) (z : Nat) : State := zoneSeen (evalZone s z (zoneHeld s z)) z

/-- R194: an evaluation with the values of the frame before, held by that frame's marks; the evaluation with this frame's own is one by itself. -/
def evalLateZone (f : PipeFrame) (s : State) (z : Nat) : State :=
  setZone (zoneSeen (evalZone s z (zoneHeldBy s z (f.stale ||| f.zstale) f.skip)) z) z (fun x => { x with inFrame := (getZone s z).inFrame })

/-- R178, R183: the zones of pass p that are evaluated now; with `peak`, those that wait for the pipeline (R194). -/
def zonesOfPass (s : State) (p : Nat) (peak : Bool) : List Nat :=
  (List.range 32).filter (fun z =>
    let k := zoneKind (reg s) z
    (k == 1 || k == 3) && zonePass (reg s) z == p && !(getZone s z).inFrame
    && ((zonePeak (reg s) z && !(fallback s z)) == peak))

/-- R183, R194: the PEAK zones of pass p that still wait for its pipeline, one bit a zone. -/
def peakWaits (s : State) (p : Nat) : BitVec 32 := (zonesOfPass s p true).foldl (fun m z => putBit m z true) 0

/-- Evaluates the zones of a pass, then the permits (R178, R192). -/
def evalPass (s : State) (p : Nat) (peak : Bool) : State :=
  unheld s (permitsCount ((zonesOfPass s p peak).foldl evalSeen s))

/-- R192, R194: the PEAK zones that waited for a frame of the pass which the pipeline finishes only in the next frame are evaluated in that frame, and
by that frame's data: a skip of the next one (R104) does not touch it. -/
def evalLate (s : State) (p : Nat) (f : PipeFrame) : State :=
  let late := (List.range 32).filter (fun z => bit f.peak z && zonePeak (reg s) z && zonePass (reg s) z == p)
  let s1 := late.foldl (evalLateZone f) (setPass s p (fun x => { x with ovr := false }))
  unheld s (permitsCount (setPass s1 p (fun x => { x with ovr := (getPass s p).ovr })))

/-- R178: the AUX zones, evaluated at each beat. -/
def evalAuxZones (s : State) : State :=
  ((List.range 32).filter (fun z => zoneKind (reg s) z == 2)).foldl evalSeen s

/-- R188: an urgent result evaluates the channel's zones at once; it can only trip, with DEB = 0. -/
def evalUrgent (s : State) (z : Nat) : State :=
  let e := zoneLevel s z (zoneBz s z)
  let s1 := setZone s z (fun x => { x with metric := e })
  if (getZone s1 z).bvalid && !(unmeasurable s1 z) && rf (reg s) (zoneKey z 2) 0 4 == 0 && decide (zoneOn s1 z ≤ e) then tripZone s1 z else s1

def evalUrgentChannel (s : State) (ch : Nat) : State :=
  unheld s (((List.range 32).filter (fun z => zoneKind (reg s) z == 2 && zoneIdx (reg s) z % 8 == ch)).foldl evalUrgent s)

/-! ### Nodes that become fenced (R42, R185) -/

/-- FEN marks of a pass's nodes under the fences now in force. -/
def markFen (s : State) (p : Nat) (x : Pass) : Pass :=
  let r := reg s
  let b := actProg s
  let tx := txPins r b p
  let rx := rxPins r b p
  let c := max rx.length 1
  { x with nodes := x.nodes.mapIdx (fun i n =>
      { n with fen := (isMutual r b p && pinFenced s (tx.getD (i / c) 0)) || rxFenced s r (rx.getD (i % c) 0) }) }

/-- R185: a node of the zone has another FEN mark than before. -/
def fenChanged (before after : State) (z : Nat) : Bool :=
  let k := zoneKind (reg before) z
  (k == 1 || k == 3) &&
  (zoneNodes before z).any (fun i => (nodeOf (zoneSrc before z) i).fen != (nodeOf (zoneSrc after z) i).fen)

/-- After a fence or unfence of a unit that nodes use: FEN marks are taken anew and the zones that changed are seated anew. -/
def refreshFen (s : State) : State :=
  let s1 := { s with car := { s.car with passes := s.car.passes.mapIdx (fun p x => if x.nodes.isEmpty then x else markFen s p x) } }
  ((List.range 32).filter (fenChanged s s1)).foldl seatZone s1

/-! ### The rows -/

/-- ZONE_TRIP (R188): the trip count is complete, or a condition of R36 holds. -/
def execZoneTrip (z : Fin 32) (s : State) : Res :=
  .next (unheld s (if decide (rf (reg s) (zoneKey z 2) 0 4 + 1 ≤ (getZone s z).tcnt) then tripZone s z
    else if r36 s z then setZone (tripZone s z) z (fun x => { x with unmeas := zoneUnmeas s z }) else s))

/-- ZONE_RELEASE (R188): a tripped zone whose release count is complete, with no condition of R36 and no latch. -/
def execZoneRelease (z : Fin 32) (s : State) : Res :=
  .next (unheld s (if decide (rf (reg s) (zoneKey z 2) 4 8 + 1 ≤ (getZone s z).rcnt) && !(r36 s z) && !(rbit (reg s) (zoneKey z 1) 15)
    then releaseZone s z else s))

/-- ZONE_UNMEAS_TRIP (R189): the zone has been held for STLIM + 1 consecutive frames. -/
def execZoneUnmeasTrip (z : Fin 32) (s : State) : Res :=
  .next (unheld s (if heldOut s z then setZone (tripZone s z) z (fun x => { x with unmeas := true }) else s))

/-- ZONE_BASELINE_VALID (R185, R187): the 32 evaluations of a seating, and the 32 frames of scanning, are complete; in the 32nd frame the zone's
evaluation has been made. -/
def execZoneBaselineValid (z : Fin 32) (s : State) : Res :=
  .next (unheld s (if seatDone s z (getZone s z).evals && (decide (33 ≤ s.beat.scanFrames) || (getZone s z).inFrame) then setZone s z (fun x => { x with bvalid := true }) else s))

/-- ZONE_SOURCE_TIMEOUT (R185): the zone's source has not been evaluated for more than 64 frames. -/
def execZoneSourceTimeout (z : Fin 32) (s : State) : Res :=
  .next (unheld s (if 64 < (getZone s z).since then seatZone s z else s))

/-- R188: ZCLR releases a latched zone whose baseline is valid, with no condition of R36 and its latest e at most ZTHOFF. -/
def zclrZone (s : State) (z : Nat) : State :=
  if (getZone s z).trip && rbit (reg s) (zoneKey z 1) 15 && !(r36 s z) && decide ((getZone s z).metric ≤ zoneOff s z) then releaseZone s z else s

/-- A write of ZCLR0 or ZCLR1 (R204). -/
def zclrWrite (s : State) (hi : Bool) (w : W16) : State :=
  unheld s (((List.range 16).filter (fun j => bit w j)).foldl (fun s j => zclrZone s (16 * b2n hi + j)) s)

/-- ZCLR (R188). -/
def execZclr (hi : Bool) (w : W16) (s : State) : Res := .next (unheld s (cfgWrites s (fun s => zclrWrite s hi w)))

/-- R179: the zone of a bitmap word, and whether that zone uses it. -/
def zoneUsesWord (s : State) (w : Nat) : Bool :=
  let z := w / 1024
  let k := zoneKind (reg s) z
  (k == 1 || k == 3) && (passList (reg s) (actProg s)).contains (zonePass (reg s) z)
  && decide (16 * (w % 1024) < nodeCount (reg s) (actProg s) (zonePass (reg s) z))

/-- R179: a bitmap word written at the access; the word's error goes, and a zone that uses a changed word is seated anew. -/
def bitmapWrite (s : State) (w : Nat) (v : W16) : State :=
  let changed := sget zero16 s.zon.sram w != v
  let s1 := { s with zon := { s.zon with sram := sset zero16 s.zon.sram w v, bad := s.zon.bad.filter (fun x => x != w) } }
  if changed && zoneUsesWord s w then seatZone s1 (w / 1024) else s1

/-- ZONE_BITMAP_WRITE (R179). -/
def execZoneBitmapWrite (adr : BitVec 15) (v : W16) (s : State) : Res := .next (cfgWrites s (fun s => bitmapWrite s adr.toNat v))

/-- R179, R377: an uncorrectable zone SRAM word: the zone that uses it is fenced; otherwise only the entry is written. -/
def zoneWordFault (s : State) (w : Nat) : State :=
  let s1 := { s with zon := { s.zon with bad := if s.zon.bad.contains w then s.zon.bad else s.zon.bad ++ [w] } }
  if zoneUsesWord s w then fenceZone s1 (w / 1024) w else logEv s1 0x10 (w / 1024) (w16 w)

end Sys2Proof.Machine
end

