-- ==== Sys2Proof/Machine/Gesture.lean ====
section
/-! DEFINITION. Axis electrodes and runs (R123), and the WATCH gesture engine (R133 to R136). -/
namespace Sys2Proof.Machine

/-- R115: D shifted and rounded by a pass's SHIFT, before the limit. -/
def shifted (r : Reader) (b p : Nat) (d : Int) : Int := roundShift d (rf r (pipeKey b p 1) 0 4)

/-- R123: the value of axis electrode i of pass p against its axis baseline. -/
def axisLevel (s : State) (p i : Nat) : Int :=
  let r := reg s
  let b := actProg s
  let x := getPass s p
  shifted r b p (passSign r b p * ((nodeOf x i).n - (x.axis.getD i 0 >>> 8)))

/-- R123: electrode i is active at threshold th. -/
def axisActive (s : State) (p : Nat) (th : Int) (i : Nat) : Bool := decide (th ≤ axisLevel s p i)

def axisSplit (s : State) (p : Nat) : Nat := rf (reg s) (pipeKey (actProg s) p 12) 0 7

/-- R123: the runs among indices lo to hi - 1. -/
def runsOf (act : Nat → Bool) (lo hi : Nat) : List (List Nat) :=
  ((List.range hi).filter (fun i => decide (lo ≤ i) && act i)).foldr
    (fun i acc => match acc with
      | (j :: t) :: rest => if j = i + 1 then (i :: j :: t) :: rest else [i] :: (j :: t) :: rest
      | _ => [i] :: acc) []

/-- R120, R134: the weighted centroid of a run, in 1/256 pitch. -/
def runCentre (s : State) (p : Nat) (th : Int) (run : List Nat) : Int :=
  let w := fun i => axisLevel s p i - th + 1
  let den := run.foldl (fun a i => a + w i) 0
  let num := run.foldl (fun a i => a + w i * i) 0
  if den = 0 then 0 else roundDivI (256 * num) den

/-- What one WATCH frame shows (R134, R135). -/
structure GestView where
  rows : List (List Nat)
  cols : List (List Nat)
  nrow : Nat
  ncol : Nat
  x : Int
  y : Int
  rise : Int

def gestTh (s : State) : Int := rf (reg s) 0x124A 0 12

def gestView (s : State) (p : Nat) : GestView :=
  let n := colCount (reg s) (actProg s) p
  let th := gestTh s
  let act := axisActive s p th
  let sp := min (axisSplit s p) n
  let rows := runsOf act 0 sp
  let cols := runsOf act sp n
  { rows := rows, cols := cols
    nrow := ((List.range sp).filter act).length
    ncol := ((List.range n).filter (fun i => decide (sp ≤ i) && act i)).length
    x := runCentre s p th (cols.headD [])
    y := runCentre s p th (rows.headD [])
    rise := (List.range n).foldl (fun a i => a + max 0 (axisLevel s p i)) 0 }

def oneObject (v : GestView) : Bool := v.rows.length == 1 && v.cols.length == 1
def isAmbig (v : GestView) : Bool := decide (2 ≤ v.rows.length) && decide (2 ≤ v.cols.length)
def isMulti (v : GestView) : Bool := decide (2 ≤ v.rows.length) != decide (2 ≤ v.cols.length)
def noneActive (v : GestView) : Bool := v.nrow == 0 && v.ncol == 0

/-- R110, R133: in the first tracking frame each axis baseline is seated before anything is formed from it. -/
def gestSeat (s : State) (p : Nat) : State :=
  if s.car.gest.track = 32 then
    setPass s p (fun x => { x with axis := (List.range (colCount (reg s) (actProg s) p)).map (fun i => (nodeOf x i).n * 256) })
  else s

/-- R112: a node without data is frozen: FEN, SAT, or its group is NOISY. -/
def noData (n : Node) (noisy : Bool) : Bool := n.fen || n.sat || noisy

/-- R111, R112, R133: the axis baselines are tracked: at FASTRATE in the later tracking frames, at RATE while no electrode is active. -/
def gestTrack (s : State) (p : Nat) (v : GestView) (noisy : Bool) : State :=
  let r := reg s
  let b := actProg s
  let g := s.car.gest
  let x := getPass s p
  let step := fun (rate : Nat) (i : Nat) =>
    let w := x.axis.getD i 0
    if noData (nodeOf x i) noisy then w else w + ((((nodeOf x i).n * 256) - w) >>> rate)
  let all := fun (rate : Nat) => (List.range (colCount r b p)).map (step (max 1 rate))
  let axis :=
    if g.track = 32 then x.axis
    else if 0 < g.track then all (rf r (pipeKey b p 2) 4 4)
    else if noneActive v then all (rf r (pipeKey b p 2) 0 4)
    else x.axis
  let s1 := setPass s p (fun y => { y with axis := axis })
  { s1 with car := { s1.car with gest := { g with track := g.track - 1, bvalid := g.bvalid || g.track == 1 } } }

/-- R134: no single-object gesture is in progress; an object that has swiped must still lift (R135). -/
def gestAbandon (g : Gest) : Gest := { g with present := false, frames := 0, moved := false, absent := 0, tapWait := none, second := false }

/-- R135: the largest travel along an axis since touch-down. -/
def far (g : Gest) (x y : Int) (lim : Nat) : Bool := decide (lim < (x - g.x0).natAbs) || decide (lim < (y - g.y0).natAbs)

/-- R135: a touch-down; it is a second touch when it comes in time and near a waiting TAP. An object that must lift starts nothing. -/
def touchDown (s : State) (g : Gest) (x y : Int) : Gest :=
  let gap := 4 * rf (reg s) 0x124B 8 8
  let second := match g.tapWait with
    | none => false
    | some n => decide (n ≤ gap) && decide ((x - g.tapX).natAbs ≤ 512) && decide ((y - g.tapY).natAbs ≤ 512)
  if g.mustLift then { g with absent := 0 }
  else { g with present := true, x0 := x, y0 := y, x := x, y := y, frames := 1, moved := false, absent := 0
                second := second, tapWait := if second then none else g.tapWait }

/-- R135: the swipe that an object's travel shows, or 0. -/
def swipeCode (s : State) (g : Gest) : BitVec 4 :=
  let dist := 16 * rf (reg s) 0x124C 0 8
  let time := 8 * rf (reg s) 0x124C 8 8
  let dx := g.x - g.x0
  let dy := g.y - g.y0
  if g.mustLift || decide (time < g.frames) then 0
  else if dist ≤ dx.natAbs ∧ 2 * dy.natAbs ≤ dx.natAbs then (if 0 ≤ dx then 3 else 4)
  else if dist ≤ dy.natAbs ∧ 2 * dx.natAbs ≤ dy.natAbs then (if 0 ≤ dy then 5 else 6)
  else 0

/-- R135: a frame with one object. -/
def gestPresent (s : State) (g : Gest) (x y : Int) : Gest × BitVec 4 :=
  if !g.present then (touchDown s g x y, 0)
  else
    (let g1 := { g with frames := g.frames + 1 + g.absent, absent := 0, x := x, y := y, moved := g.moved || far g x y 256 }
     let c := swipeCode s g1
     (if c = 0 then g1 else { g1 with mustLift := true }, c))

/-- R135: a frame without an object; the second one in a row ends the touch, which may be a TAP or a DTAP, and lifts the object. With DTAP enabled a
TAP waits; a second touch too far away leaves it waiting, and one that is itself a TAP takes its place (DESIGN CHOICE, log 26). Without, a TAP is
reported at once, and a second touch that makes a DTAP is both (R136; DESIGN CHOICE, log 26). -/
def gestAbsent (s : State) (g : Gest) : Gest × BitVec 4 :=
  if !g.present then (if g.absent = 0 then { g with absent := 1 } else { g with mustLift := false }, 0)
  else if g.absent = 0 then ({ g with absent := 1 }, 0)
  else
    (let tap := !g.mustLift && !g.moved && decide (2 ≤ g.frames) && decide (g.frames ≤ 4 * rf (reg s) 0x124B 0 8)
     let g1 := { g with present := false, frames := 0, absent := 0, mustLift := false, moved := false, second := false }
     let dtap := rbit (reg s) 0x1248 1
     if tap && g.second then (if dtap then g1 else { g1 with found := g1.found ++ [1] }, 2)
     else if tap then ({ g1 with tapWait := some 1, tapTold := !dtap, tapX := g.x0, tapY := g.y0 }, if dtap then 0 else 1)
     else (g1, 0))

/-- R135: a waiting TAP is reported once DTGAP * 4 frames have passed with no second touch, unless it has been. -/
def gestTapWait (s : State) (g : Gest) : Gest × BitVec 4 :=
  match g.tapWait with
  | none => (g, 0)
  | some n => if 4 * rf (reg s) 0x124B 8 8 ≤ n then ({ g with tapWait := none }, if g.tapTold then 0 else 1) else ({ g with tapWait := some (n + 1) }, 0)

/-- R135: PALM and APPR, each once until its condition has ended. -/
def gestPalm (s : State) (g : Gest) (v : GestView) : Gest × BitVec 4 :=
  let r := reg s
  if rf r 0x124D 0 4 ≤ v.nrow ∧ rf r 0x124D 4 4 ≤ v.ncol then
    (let n := g.palm + 1
     if 4 * rf r 0x124D 8 8 ≤ n ∧ g.palmDone = false then ({ g with palm := n, palmDone := true }, 7) else ({ g with palm := n }, 0))
  else ({ g with palm := 0, palmDone := false }, 0)

def gestAppr (s : State) (g : Gest) (v : GestView) : Gest × BitVec 4 :=
  let r := reg s
  if (4 * rf r 0x124E 0 12 : Int) ≤ v.rise ∧ noneActive v then
    (let n := g.appr + 1
     if 16 * rf r 0x124E 12 4 ≤ n ∧ g.apprDone = false then ({ g with appr := n, apprDone := true }, 8) else ({ g with appr := n }, 0))
  else ({ g with appr := 0, apprDone := false }, 0)

/-- R134: the flags of a frame. -/
def gestFlags (s : State) (v : GestView) : State :=
  { s with car := { s.car with gest := { s.car.gest with ambig := isAmbig v, multi := isMulti v } } }

/-- R134, R135: one frame of the engine with valid baselines; every gesture it recognises waits to be written. -/
def gestFrame (s : State) (v : GestView) : State :=
  let g0 := s.car.gest
  let (g1, c1) := if isAmbig v || isMulti v then (gestAbandon g0, (0 : BitVec 4))
    else if oneObject v then gestPresent s g0 v.x v.y else gestAbsent s g0
  let (g2, c2) := gestTapWait s g1
  let (g3, c3) := gestPalm s g2 v
  let (g4, c4) := gestAppr s g3 v
  { s with car := { s.car with gest := { g4 with found := g4.found ++ [c1, c2, c3, c4].filter (fun c => c != 0) } } }

/-- R133 to R135: the engine's frame, when the named AXIS pass's step has completed in WATCH; `noisy` counts its NOISY steps. Until the
baselines are valid only the flags of R134 follow (log 26). A frame whose AXIS step is STALE is `gestStale`'s (DESIGN CHOICE, log 121). -/
def gestStep (s : State) (p noisy : Nat) : State :=
  if s.pwr.mode = .watch ∧ rf (reg s) 0x1248 8 4 = p ∧ passType (reg s) (actProg s) p = 3 then
    (let s0 := gestSeat s p
     let v := gestView s0 p
     let s1 := gestFlags s0 v
     let s2 := if s1.car.gest.bvalid then gestFrame s1 v else s1
     gestTrack s2 p v (decide (0 < noisy)))
  else s

/-- R134, R135: a WATCH frame whose AXIS step is STALE is a frame like any other: its nodes keep the values of the frame before (R85), so the
picture and with it AMBIG and MULTI stay, and the times of R135 run on; without new data no baseline moves (R112), and none of the frames of R133
counts (DESIGN CHOICE, log 121). -/
def gestStale (s : State) (p : Nat) : State :=
  if s.pwr.mode = .watch ∧ rf (reg s) 0x1248 8 4 = p ∧ passType (reg s) (actProg s) p = 3 ∧ s.car.gest.bvalid = true then gestFrame s (gestView s p) else s

/-- R133: on entry to WATCH the engine keeps the copied baselines of a pass with valid ones; otherwise it tracks for 32 frames. -/
def gestEnter (s : State) : State :=
  let p := rf (reg s) 0x1248 8 4
  let ok := (getPass s p).bvalid && passType (reg s) (actProg s) p == 3
  let old := s.car.gest
  { s with car := { s.car with gest := { last := old.last, bvalid := ok, track := if ok then 0 else 32 } } }

/-- GESTURE (R135, R136): the first recognised gesture not yet written is written to LAST, and requests a wake when its bit of GESTCFG is
set. -/
def execGesture (s : State) : Res :=
  .next (match s.car.gest.found with
    | [] => s
    | c :: rest =>
      let s1 := { s with car := { s.car with gest := { s.car.gest with last := c, found := rest } } }
      if s1.pwr.mode = .watch ∧ bit (reg s1 0x1248) (c.toNat - 1) then wakeEvent s1 2 .scan else s1)

end Sys2Proof.Machine
end

