-- ==== Sys2Proof/Machine/Permits.lean ====
section
/-! DEFINITION. The permits (R37, R192 to R199): commanding, readback, faults, and the remote timeouts and ALERTs that go with them. -/
namespace Sys2Proof.Machine

/-- R192: a mapped zone or entry is tripped: the permit is OFF. -/
def permitCheck (s : State) (k : Nat) : State := if allClear s k then s else permitOff s k

/-- R192 for every permit, when a remote entry may have tripped, which restarts its count of clear frames. -/
def permitsCheck (s : State) : State :=
  unheld s ([0, 1, 2, 3].foldl permitCheck
    { s with out := { s.out with entries := s.out.entries.mapIdx (fun e x => if !(entryEnabled s e) || entryTripped s e then {} else x) } })

/-- PERMIT_ON (R192, R37): the permit is commanded ON when every condition stands. -/
def execPermitOn (k : Fin 4) (s : State) : Res := .next (permitTry s k)

/-- R195: a write of PERMIT.FORCE; a permit forced OFF turns OFF at once. -/
def permitForce (s : State) (w : W16) : State :=
  [0, 1, 2, 3].foldl (fun s k =>
    let s1 := setPermit s k (fun p => { p with force := bit w k })
    if bit w k then permitOff s1 k else s1) s

/-- R199: the permits other than k that are ON, by bit. -/
def othersOn (s : State) (k : Nat) : BitVec 4 :=
  [0, 1, 2, 3].foldl (fun m j => putBit m j (j != k && (getPermit s j).cmd)) 0

/-- R199: a fault is latched in PERMDIAG, signalled and logged, and an ALERT sent. -/
def latchFault (s : State) (k : Nat) (code : BitVec 3) (act : Bool) (judge : Option (BitVec 4)) : State :=
  let s1 := setPermit s k (fun p => { p with fault := code, act := act, judge := judge })
  sendAlert (logEv (raise s1 2) 0x11 k (w16 code.toNat))

/-- PERMIT_READBACK_FAULT (R199): commanded OFF for 200 us and read back ON, with VFLD above its threshold. -/
def execPermitReadbackFault (k : Fin 4) (s : State) : Res :=
  .next (unheld s (
    let p := getPermit s k
    if !p.cmd && p.out && s.pwr.vfldOk && p.fault == 0 then
      (if othersOn s k = 0 then latchFault s k 1 true none else latchFault s k 3 true (some (othersOn s k)))
    else s))

/-- PERMIT_SHORT (R199, R391): commanded ON in current limit, the switch reaches its thermal trip point. -/
def execPermitShort (k : Fin 4) (s : State) : Res :=
  .next (unheld s (if (getPermit s k).cmd then latchFault (permitOff s k) k 2 true none else s))

/-- BACKFED_REJUDGE (R199): every permit that was ON has been OFF for 1 ms; the line is judged once, whatever VFLDOK shows (DESIGN CHOICE,
log 113). -/
def execBackfedRejudge (k : Fin 4) (s : State) : Res :=
  .next (unheld s (
    let p := getPermit s k
    if p.fault == 3 && p.judge == some 0 then
      (if p.out then latchFault s k 1 true none else setPermit s k (fun p => { p with judge := none }))
    else s))

/-- R199: a write of PERMCLR: a latched fault clears only while its ACT is clear. -/
def permClr (s : State) (w : W16) : State :=
  unheld s (([0, 1, 2, 3].filter (fun k => bit w k)).foldl (fun s k =>
    if (getPermit s k).act then s else setPermit s k (fun p => { p with fault := 0, judge := none })) s)

/-- PERMCLR (R199). -/
def execPermclr (w : W16) (s : State) : Res := .next (cfgWrites s (fun s => permClr s w))

/-- ALERT_PERIODIC (R196): eight beats have passed without an ALERT. -/
def execAlertPeriodic (s : State) : Res := .next (if 8 ≤ s.out.sinceAlert then sendAlert s else s)

/-- REMOTE_TIMEOUT (R197): the device's newest ALERT is RTO beats old; its entries count as tripped and act on the permits. -/
def execRemoteTimeout (dev : BitVec 9) (s : State) : Res :=
  .next (match remoteOf s dev with
    | none => s
    | some r => if remoteLimit s ≤ r.age then permitsCheck s else s)

/-- PERMIT_READBACK_CHANGE (R198, R199): OUT follows the output; ACT of a STUCKON or BACKFED fault follows it. -/
def execPermitReadbackChange (k : Fin 4) (on : Bool) (s : State) : Res :=
  .next (setPermit s k (fun p => { p with out := on, act := if p.fault == 1 || p.fault == 3 then on && !p.cmd else p.act }))

/-- PERMIT_SWITCH_COOLED (R199): ACT of a SHORT clears. -/
def execPermitSwitchCooled (k : Fin 4) (s : State) : Res :=
  .next (setPermit s k (fun p => { p with act := if p.fault == 2 then false else p.act }))

end Sys2Proof.Machine
end

