-- ==== Sys2Proof/Machine/Frame.lean ====
section
/-! DEFINITION. Frames: which passes run, marks of groups (R84 to R87, R107, R130), noise levels and hops (R97 to R99), program
length (R87), and a program taking force (R72, R99, R109 to R114). -/
namespace Sys2Proof.Machine

/-! ### Passes of the frame -/

/-- R71, R73: the passes that the frame runs. -/
def framePasses (s : State) : List Nat :=
  (passList (reg s) (actProg s)).filter (fun p => s.pwr.mode == .scan || runsInWatch (passType (reg s) (actProg s) p))

/-- The carousel is running and the pass is in this frame. -/
def passRuns (s : State) (p : Nat) : Bool := s.beat.running && (framePasses s).contains p

def groupsOf (s : State) (p : Nat) : Nat := groupCount (reg s) (actProg s) p

/-- Every group of the pass has been decoded or marked. -/
def passEnded (s : State) (p : Nat) : Bool := (List.range (groupsOf s p)).all (fun g => bit (getPass s p).ended g)

/-- The groups of the pass not yet decoded or marked. -/
def groupsLeft (s : State) (p : Nat) : List Nat := (List.range (groupsOf s p)).filter (fun g => !(bit (getPass s p).ended g))

/-- R85: the frame deadline D, in SENSE clocks from the beat. -/
def deadlineAt (s : State) : Nat := s.beat.period - guardClocks (reg s)

/-- R84: the start-time shift of a frame with a forced gap. -/
def frameShift (s : State) : Nat := if s.ana.calGap then 4000 else 0

/-- A frame boundary: a beat has just begun, and no pass has started. -/
def atBoundary (s : State) : Bool := s.beat.clk == 0 && s.jtag.ir != .extest && s.car.run.isNone && s.car.passes.all (fun x => !x.started)

/-- Every pass of the frame has ended. -/
def frameRan (s : State) : Bool := s.beat.running && s.car.run.isNone && (framePasses s).all (passEnded s)

/-- R61, R88: what is left of the frame gap, from the end of the last pass that ran to D. -/
def gapClocks (s : State) : Nat := deadlineAt s - s.car.lastEnd

/-! ### Ends and marks of groups -/

/-- R178: the zones of a pass are evaluated when its last group has been decoded or marked. -/
def afterGroup (s : State) (p : Nat) : State := if passEnded s p then evalPass s p false else s

/-- R183: zones that fall back to SUM only after their pass's last group, as through a fence or a RESEAT, are evaluated then. -/
def fallEval (s : State) : State := if s.beat.running then (framePasses s).foldl afterGroup s else s

/-- R109, R183: a Granary bank is fenced while a frame may be in progress. -/
def bankFence (s : State) (k : Nat) : State := fallEval (fenceBank s k)

/-- A group has been decoded, or has nothing to decode. -/
def endGroup (s : State) (p g : Nat) : State :=
  afterGroup (setPass s p (fun x => { x with ended := putBit x.ended g true })) p

/-- R85, R87: a group, self step or LISTEN pass marked STALE. -/
def staleMark (s : State) (p g : Nat) : State :=
  let s1 := setPass s p (fun x => { x with stale := putBit x.stale g true, ended := putBit x.ended g true })
  { s1 with car := { s1.car with stalecnt := satInc s1.car.stalecnt } }

def staleGroup (s : State) (p g : Nat) : State := afterGroup (gestStale (staleMark s p g) p) p

/-- R86: every group and pass of the frame that has not run is STALE. -/
def staleLeft (s : State) : State := (framePasses s).foldl (fun s p => (groupsLeft s p).foldl (fun s g => staleGroup s p g) s) s

/-- R130: a failed check of n rows: counted, logged once in the frame, and the sixteenth failing frame in a row fences the pipeline; every one after
it is a fault of the fenced pipeline anew (R367, R369). -/
def checkFail (s : State) (p n : Nat) : State :=
  let x := getPass s p
  let s1 := { s with car := { s.car with chkcnt := satAdd s.car.chkcnt n } }
  let s2 := setPass s1 p (fun x => { x with
    failRows := min 255 (x.failRows + n), failNow := true
    failFrames := if x.failNow then x.failFrames else x.failFrames + 1 })
  let s3 := if x.failNow then s2 else logEv s2 0x0A p (w16 (x.failRows + n))
  if 16 ≤ (getPass s3 p).failFrames then pipeFence s3 p 1 else s3

/-- R130: the group is discarded for this frame. -/
def failGroup (s : State) (p g n : Nat) : State := staleGroup (checkFail s p n) p g

/-! ### Program length (R87) -/

def programLong (s : State) : Bool :=
  decide (s.beat.period < programClocks (reg s) (actProg s) (fun p => (getPass s p).fq.toNat) (fun p => (framePasses s).contains p) + guardClocks (reg s))

/-- R87: LONG follows, and PROGLONG is logged when it sets. -/
def longUpdate (s : State) : State :=
  let l := programLong s
  let s1 := { s with car := { s.car with long := l } }
  if l && !s.car.long then logEv s1 0x0E (actProg s) 0 else s1

/-! ### Noise levels and hops (R97, R98) -/

/-- R97: the smoothed level after a measurement. -/
def smooth (old : Option Int) (p : Int) : Int :=
  match old with
  | none => p
  | some n => n + ((p - n + 4) >>> 3)

def levelOf (s : State) (k : Nat) : Int := (s.car.noise.getD k none).getD 0

/-- The frequencies of a pass's FQMASK. -/
def fqSet (s : State) (p : Nat) : List Nat := (List.range 8).filter (fun k => (rf (reg s) (passKey (actProg s) p 2) 0 8).testBit k)

/-- R98: the candidate frequency: the lowest level other than the current one, ties to the lower index. -/
def hopBest (s : State) (p : Nat) : Option Nat :=
  match (fqSet s p).filter (fun k => k != (getPass s p).fq.toNat) with
  | [] => none
  | k :: t => some (t.foldl (fun a j => if levelOf s j < levelOf s a then j else a) k)

/-- R98: the candidate count of a frame with a LISTEN pass. -/
def hopCountFrame (s : State) (p : Nat) : State :=
  match hopBest s p with
  | none => s
  | some k =>
    if 2 * (rf (reg s) 0x502 0 6 : Int) ≤ levelOf s (getPass s p).fq.toNat - levelOf s k then
      setPass s p (fun x => { x with hopCount := if x.hopCand = some k then x.hopCount + 1 else 1, hopCand := some k })
    else setPass s p (fun x => { x with hopCount := 0, hopCand := none })

/-- R98: the count is reached and the dwell has passed. -/
def hopReady (s : State) (p : Nat) : Bool :=
  let x := getPass s p
  (match x.hopCand with
   | none => false
   | some _ => decide (rf (reg s) 0x502 6 4 + 1 ≤ x.hopCount))
  && (match x.sinceHop with
      | none => true
      | some n => decide (4 * rf (reg s) 0x502 10 6 ≤ n))

/-- R98: the pass hops. -/
def hopTry (s : State) (p : Nat) : State :=
  match (getPass s p).hopCand with
  | none => s
  | some k =>
    if hopReady s p then
      (let s1 := setPass s p (fun x => { x with fq := BitVec.ofNat 3 k, hopCand := none, hopCount := 0, sinceHop := some 0 })
       { s1 with car := { s1.car with hopcnt := satInc s1.car.hopcnt } })
    else s

/-- R98: every pass with two or more frequencies, at a frame boundary. -/
def hopFrame (s : State) : State :=
  (passList (reg s) (actProg s)).foldl (fun s p =>
    let s1 := setPass s p (fun x => { x with sinceHop := x.sinceHop.map (fun n => n + 1) })
    if 2 ≤ (fqSet s1 p).length then (if s.car.listened then hopTry (hopCountFrame s1 p) p else s1) else s1) s

/-! ### A program taking force -/

/-- R47: the SLEWCLIP entries of a program. -/
def slewClips (r : Reader) (b : Nat) : List (Nat × Nat × W16) :=
  (passList r b).flatMap (fun p =>
    ((List.range 8).filter (fun k => (rf r (passKey b p 2) 0 8).testBit k && slewClipped r b p k && !(isListen r b p))).map
      (fun k => (0x02, p, w16 k)))

/-- R114: pass p of the new program keeps its baselines: the pass of the previous program with the same area start, T and R. -/
def keepsFrom (old new : Reader) (b0 b1 p : Nat) : Option Nat :=
  if rbit new (pipeKey b1 p 1) 6 && ownsArea new b1 p then
    (passList old b0).find? (fun q => ownsArea old b0 q && gbase old b0 q == gbase new b1 p
      && rowCount old b0 q == rowCount new b1 p && colCount old b0 q == colCount new b1 p)
  else none

/-- The pass state with which pass p of a program begins (R98, R99, R110, R114). The key groups keep their state by pass number (R126;
DESIGN CHOICE, log 110). -/
def passBegin (old new : Reader) (b0 b1 : Nat) (ps : List Pass) (p : Nat) : Pass :=
  let was := ps.getD p {}
  let kept := match keepsFrom old new b0 b1 p with
    | none => none
    | some q => if (ps.getD q {}).bvalid then some (ps.getD q {}) else none
  let base : Pass :=
    match kept with
    | some k => { k with image := none, stale := 0, noisy := 0, skip := 0, zstale := 0, started := false, ended := 0, cand := none, rows := [], saved := [], finished := false
                         pipe := none, ovr := false }
    | none => { seat := 32, nodes := if passType old b0 p = passType new b1 p ∧ rowCount old b0 p = rowCount new b1 p ∧ colCount old b0 p = colCount new b1 p then was.nodes else [] }
  { base with fq := BitVec.ofNat 3 (rf new (passKey b1 p 2) 8 3), hopCand := none, hopCount := 0, sinceHop := none
              pipeFen := was.pipeFen, failFrames := was.failFrames, keys := was.keys
              -- the axis baselines of a pass that lost its own begin anew at the next copy (R123)
              axis := if kept.isSome then base.axis else [] }

/-- R109, R114: the passes of the program now in force whose area lies in a fenced bank are fenced; the header of one that is fenced
already shows it where its area now lies. -/
def fenceInBadBanks (s : State) : State :=
  (passList (reg s) (actProg s)).foldl (fun s p =>
    if (getPass s p).pipeFen then headerFen s p
    else if (List.range 16).any (fun k => bit s.mem.granFen k && inBank (reg s) (actProg s) p k) then pipeFence s p 0
    else s) s

/-- R179: zones that now use a word with an uncorrectable error are fenced. -/
def fenceBadZones (s : State) : State :=
  s.zon.bad.foldl (fun s w => if zoneUsesWord s w && !(getZone s (w / 1024)).fen then fenceZone s (w / 1024) w else s) s

/-- Program b1 takes force; `old` and b0 are what was in force. -/
def programForce (s : State) (old : Reader) (b0 : Nat) : State :=
  let b1 := rf (reg s) 0x500 0 1
  let ps := s.car.passes
  let s1 := { s with car := { s.car with act := b1 == 1, passes := (List.range 16).map (passBegin old (reg s) b0 b1 ps), run := none, shown := none } }
  let s2 := logAll s1 (slewClips (reg s1) b1)
  fenceInBadBanks s2

/-- The words that make a program: a change in one of them means that the program takes force anew (R72; log 7). -/
def programWords (r : Reader) (b : Nat) : List W16 :=
  (List.range 128).map (fun i => r (0x600 + 0x80 * b + i)) ++ (List.range 1024).map (fun i => r (0x800 + 0x400 * b + i))
    ++ (List.range 256).map (fun i => r (0x1000 + 0x100 * b + i)) ++ (List.range 8).map (fun k => r (0x508 + k))

end Sys2Proof.Machine
end

