-- ==== Sys2Proof/Machine/Clock.lean ====
section
/-! DEFINITION. Time inside the block (log 2): SENSE clocks, CORE cycles (R248, R346), the timer (R246) and the multiplier's latency
(R226, R227). Time passes on an empty queue and with Carud's instructions. -/
namespace Sys2Proof.Machine

/-- R246: the timer counts down once per 200 SENSE clocks while CORE runs, and its event sets when it reaches 0. -/
def timerPass (s : State) (n : Nat) : State :=
  if !(coreRuns s) || s.cpu.timer == 0 then s
  else
    (let all := s.cpu.timerClk + n
     let us := all / 200
     let left := s.cpu.timer.toNat - us
     { s with cpu := { s.cpu with
        timer := BitVec.ofNat 24 left, timerClk := if left = 0 then 0 else all % 200
        evt := if left = 0 then putBit s.cpu.evt 7 true else s.cpu.evt } })

/-- n SENSE clocks pass. -/
def sensePass (s : State) (n : Nat) : State :=
  timerPass { s with beat := { s.beat with clk := s.beat.clk + n, now := s.beat.now + n } } n

/-- R346: SENSE clocks per CORE cycle; during a level change CORE runs at the lower frequency. -/
def coreRatio (s : State) : Nat := 2 ^ (if s.pwr.perfBusy then max s.pwr.perfNow.toNat s.pwr.perfTgt.toNat else s.pwr.perfNow.toNat)

/-- R226: an operation writes MQk. -/
def mqFinish (c : Carud) (o : MqOp) : Carud :=
  if o.acc then
    (let sum := signed (c.mq.getD o.k 0).toNat 48 + o.prod
     { c with mq := upd c.mq o.k (fun _ => BitVec.ofInt 64 (signed (wrapN sum 48) 48))
              mqstat := if sum < -2 ^ 47 ∨ 2 ^ 47 ≤ sum then putBit c.mqstat o.k true else c.mqstat })
  else { c with mq := upd c.mq o.k (fun _ => BitVec.ofInt 64 o.prod) }

/-- R227: n cycles pass; operations whose time has come finish in issue order. -/
def mqPass (c : Carud) (n : Nat) : Carud :=
  let done := c.flight.filter (fun o => decide (o.due ≤ n))
  let rest := (c.flight.filter (fun o => decide (n < o.due))).map (fun o => { o with due := o.due - n })
  { done.foldl mqFinish c with flight := rest }

/-- R257: every operation in flight completes. -/
def mqDrain (c : Carud) : Carud := { c.flight.foldl mqFinish c with flight := [] }

/-- R248: n CORE cycles. -/
def cyclePass (s : State) (n : Nat) : State := { s with cpu := { mqPass s.cpu n with cyc := s.cpu.cyc + BitVec.ofNat 64 n } }

/-- n CORE cycles, with the time they take. -/
def corePass (s : State) (n : Nat) : State := sensePass (cyclePass s n) (n * coreRatio s)

/-- One SENSE clock passes: the step on an empty queue. -/
def tick (s : State) : State :=
  if !s.pwr.powered then s
  else if coreRuns s && (s.beat.now + 1) % coreRatio s == 0 then
    (let s1 := cyclePass s 1
     sensePass { s1 with cpu := { s1.cpu with wrote := [] } } 1)
  else sensePass s 1

end Sys2Proof.Machine
end

