-- ==== Sys2Proof/Machine/Flags.lean ====
section
/-! DEFINITION. Carud's predicates (R222, R225): the only conditions the processor has (R224). -/
namespace Sys2Proof.Machine

/-- R222: predicate k; P0 is always 1. -/
def predOf (c : Carud) (k : Nat) : Bool := k == 0 || bit c.pr k

/-- R222: a predicate is written; a write to P0 is discarded. -/
def setPred (c : Carud) (k : Nat) (v : Bool) : Carud := if k = 0 then c else { c with pr := putBit c.pr k v }

/-- R222: the guard of an instruction. -/
def guardOk (s : State) (h : IHdr) : Bool := predOf s.cpu (fld h.g 0 3) != bit h.g 3

/-- R215: negated P0: a one-word NOP. -/
def isNopGuard (h : IHdr) : Bool := h.g == 8

/-- R225: s1 cc s2, signed or unsigned. -/
def compare (u : Bool) (cc : Nat) (a b : W32) : Bool :=
  let lt := if u then decide (a.toNat < b.toNat) else decide (a.toInt < b.toInt)
  match cc with
  | 0 => a == b
  | 1 => a != b
  | 2 => lt
  | 3 => lt || a == b
  | 4 => !(lt || a == b)
  | _ => !lt

/-- R225: how comb turns Pd and r into the new Pd. -/
def combine (comb : Nat) (pd r : Bool) : Bool :=
  match comb with
  | 0 => r
  | 1 => pd && r
  | 2 => pd || r
  | _ => pd && !r

/-- R223: PLOG's operations. -/
def predLogic (op : Nat) (a b : Bool) : Bool :=
  match op with
  | 0 => a && b
  | 1 => a || b
  | 2 => a != b
  | _ => a && !b

end Sys2Proof.Machine
end

