-- ==== Sys2Proof/Machine/Quiet.lean ====
section
/-! DEFINITION. Quiet windows (R89 to R92) and the placing of burst edges (R53, R60, R91 to R93). Times are SENSE clocks from the beat. -/
namespace Sys2Proof.Machine

/-! ### Windows -/

/-- R89, R90: source k imposes a window: enabled and valid. -/
def synLive (s : State) (k : Nat) : Bool := rbit (reg s) (0x510 + k) 0 && (getSyn s k).valid

/-- R90: a source that imposes a window on the pass: live, and named by SYNEN. -/
def synActive (s : State) (p k : Nat) : Bool := synLive s k && rbit (reg s) (passKey (actProg s) p 5) k

/-- R90: the window of source k in clocks after its edge: start, and end (beyond P where it wraps); none covers the whole period. -/
def synWindow (s : State) (k : Nat) : Option (Nat × Nat) :=
  let r := reg s
  let pd := (getSyn s k).period
  let qs := rf r (0x514 + k) 0 8
  let qe := rf r (0x514 + k) 8 8
  let a := ceilDiv (qs * pd) 256
  let e := qe * pd / 256
  if qs = qe then none else if qs < qe then some (a, e) else some (a, e + pd)

/-- R91: an edge slot of length len at time t lies inside the window of source k. -/
def slotOk (s : State) (k : Nat) (t len : Nat) : Bool :=
  match synWindow s k with
  | none => true
  | some (a, e) =>
    let pd := max 1 (getSyn s k).period
    let ph := (((t : Int) - (getSyn s k).last) % (pd : Int)).toNat
    (decide (a ≤ ph) && decide (ph + len ≤ e)) || decide (ph + pd + len ≤ e)

/-- The earliest time from t at which the slot of source k may begin. -/
def slotNext (s : State) (k : Nat) (t len : Nat) : Nat :=
  match synWindow s k with
  | none => t
  | some (a, _) =>
    if slotOk s k t len then t
    else
      (let pd := max 1 (getSyn s k).period
       let ph := (((t : Int) - (getSyn s k).last) % (pd : Int)).toNat
       if ph ≤ a then t + (a - ph) else t + (pd - ph) + a)

def activeSyns (s : State) (p : Nat) : List Nat := (List.range 4).filter (synActive s p)

/-- The sources' windows all hold the slot. -/
def quietIn (s : State) (ks : List Nat) (t len : Nat) : Bool := ks.all (fun k => slotOk s k t len)

/-- R91: the earliest time from t, before `lim`, at which the whole slot lies inside the quiet intersection; `lim` where there is none. Every round
goes on by a clock at least, so `lim - t` rounds suffice. -/
def quietFrom (s : State) (ks : List Nat) (len lim : Nat) : Nat → Nat → Nat
  | 0, _ => lim
  | fuel + 1, t =>
    if lim ≤ t then lim
    else if quietIn s ks t len then t
    else
      (let t' := ks.foldl (fun a k => max a (slotNext s k t len)) t
       quietFrom s ks len lim fuel (if t' = t then t + 1 else t'))

/-! ### Bursts -/

/-- How a burst's edges are placed: half period, edge slot and number of edges, the sources whose windows bind them, and the limit of
R93 after the start of the reset. -/
structure Burst where
  half : Nat
  len : Nat
  edges : Nat
  syns : List Nat
  limit : Nat
  deriving DecidableEq, Repr

def runFq (s : State) (p : Nat) : Nat := (getPass s p).fq.toNat

/-- R49: recycling applies to the burst edges of the pass. -/
def recycles (s : State) (p : Nat) : Bool := isMutual (reg s) (actProg s) p && rbit (reg s) 0x100 0

/-- R49, R91: the length of an edge slot. -/
def slotLen (s : State) (p : Nat) : Nat := (if recycles s p then 3 else 0) + edgeClocks (reg s) (actProg s) p (runFq s p)

/-- R77, R91, R93: the burst of a step of pass p. -/
def burstOf (s : State) (p : Nat) : Burst :=
  { half := halfPeriod (reg s) (runFq s p), len := slotLen s p, edges := edgeCount (reg s) (actProg s) p
    syns := activeSyns s p, limit := 4 * stepClocks (reg s) (actProg s) p (runFq s p) }

/-- The time at which the next edge is due: 40 ns after the start of the reset, then at the half period. -/
def dueAt (b : Burst) (x : StepAt) : Nat :=
  match x.times.getLast? with
  | none => x.start + 8
  | some t => t + b.half

/-- The end of a step whose edges are all made: half a period after the last edge, settle and residue (R53). -/
def stepEndAt (b : Burst) (x : StepAt) : Nat := dueAt b x + 40

/-- R91: the earliest time at which the next edge may begin, as the windows now stand: not before the edge is due, nor before they last changed. -/
def quietAt (s : State) (b : Burst) (x : StepAt) : Nat :=
  let t := max (dueAt b x) x.after
  quietFrom s b.syns b.len (x.start + b.limit) (x.start + b.limit - t) t

/-- R91: where the next edge goes: at its due time within a segment, at the earliest quiet time for the first edge; none where the step holds
(R92). The wait for a first edge whose window is closed when reset opens is part of the burst and no hold: the RX pins stay connected, and lamp
edges wait. Where no quiet time comes before 4 T_step (R93), the step holds from the time at which its first edge is due (DESIGN CHOICE, log 120). -/
def nextEdge (s : State) (b : Burst) (x : StepAt) : Option Nat :=
  if x.forced then some (dueAt b x)
  else if x.times.isEmpty then (if x.start + b.limit ≤ quietAt s b x then none else some (quietAt s b x))
  else if quietIn s b.syns (dueAt b x) b.len && decide (dueAt b x < x.start + b.limit) then some (dueAt b x)
  else none

/-- R93: a fifth segment would be needed, or the time limit comes first. -/
def needsNoisy (s : State) (b : Burst) (x : StepAt) : Bool := decide (4 ≤ x.seg) || decide (x.start + b.limit ≤ quietAt s b x)

/-- An edge is made at time t. -/
def edgeMade (x : StepAt) (t : Nat) : StepAt := { x with times := x.times ++ [t], seg := max 1 x.seg }

/-- R92: the next segment begins. -/
def segmentBegins (s : State) (b : Burst) (x : StepAt) : StepAt :=
  { x with hold := false, seg := x.seg + 1, times := x.times ++ [quietAt s b x] }

/-- R93: when the first of the edges that disregard the windows is made: at its due time when a fifth segment would be needed, else not
before the limit. -/
def noisyAt (b : Burst) (x : StepAt) : Nat := if 4 ≤ x.seg then dueAt b x else max (dueAt b x) (x.start + b.limit)

/-- R93: the remaining edges follow regardless. -/
def forceEdges (b : Burst) (x : StepAt) : StepAt := { x with hold := false, forced := true, times := x.times ++ [noisyAt b x] }

/-! ### A step of its own, as the calibration's sub-steps are (R60): its end, holds and forced edges included -/

/-- The time at which the step's edges are all made and it has ended; `n` bounds the edges. -/
def wholeStep (s : State) (b : Burst) : Nat → StepAt → Nat
  | 0, x => stepEndAt b x
  | n + 1, x =>
    if b.edges ≤ x.times.length then stepEndAt b x
    else match nextEdge s b x with
      | some t => wholeStep s b n (edgeMade x t)
      | none => if needsNoisy s b x then wholeStep s b n (forceEdges b x) else wholeStep s b n (segmentBegins s b x)

/-- R60: a calibration sub-step: 4 periods at 4 MHz with 40 ns edges; every live source binds it (log 108). -/
def calBurst (s : State) : Burst := { half := 25, len := 8, edges := 8, syns := (List.range 4).filter (synLive s), limit := 992 }

/-- R60: the end of the first n sub-steps of a calibration step that begins at t. -/
def calUpTo (s : State) (t : Nat) : Nat → Nat
  | 0 => t
  | n + 1 => wholeStep s (calBurst s) 9 { start := calUpTo s t n }

/-- R60: the end of a calibration step that begins at t. -/
def calEndAt (s : State) (t : Nat) : Nat := calUpTo s t 16

end Sys2Proof.Machine
end

