-- ==== Sys2Proof/Machine/Steps.lean ====
section
/-! DEFINITION. A step of a pass (R42 to R45, R49 to R57, R78 to R81, R91 to R95): the charge that each edge brings, the bushel-return
integrator, the composite, the run of a code group through its steps, and what drives each pin. -/
namespace Sys2Proof.Machine

/-! ### Roles (R40, R42, R74) -/

/-- The role of a pin in pass p: HIZ (5) while the electrode is fenced, else the role map's (0 is the idle role). -/
def passRole (s : State) (p pin : Nat) : Nat := if pinFenced s pin then 5 else roleOf (reg s) (actProg s) p pin

/-- R40, R70: the idle role of a pin, as a role code: GND, HIZ or SH. -/
def idleRole (s : State) (pin : Nat) : Nat :=
  if pinFenced s pin then 5
  else match rf (reg s) (0x200 + 2 * pin) 4 2 with
    | 1 => 5
    | 2 => 3
    | _ => 4

/-! ### Charge (R43, R44, R50, R56, R79); charges are in zeptocoulombs (1 aF at 1 mV) -/

/-- R50: the self amplitude in millivolts; codes 5 to 7 act as 4. -/
def vshMv (r : Reader) (b p : Nat) : Nat := 300 * (min (rf r (passKey b p 0) 10 3) 4 + 1)
/-- R56: the bushel code QQ. -/
def qqCode (r : Reader) (b p : Nat) : Nat := rf r (passKey b p 0) 6 4
/-- R56: the nominal bushel of one code unit, 0.1 pC. -/
def bushelUnit : Nat := 100000000

/-- R56, R62: 2,000 times the bushel of RX column r: the amplifier's own 0.1 pC, times the code's factor, trimmed by 0.05 % a step. -/
def bushelOf (s : State) (p r : Nat) (q : GroupInput) : Int :=
  let pin := (rxPins (reg s) (actProg s) p).getD r 0
  (qqCode (reg s) (actProg s) p + 1 : Nat) * (max 1 (q.unit.getD r bushelUnit) : Nat) * (2000 + (getAmp s (ampOfPin (reg s) pin)).trim)

/-- R42, R44: the coupling that slot c drives into RX column r, in attofarads; none from a pin that is not TX, or into one that is not RX. -/
def coupling (s : State) (p g c r : Nat) (q : GroupInput) : Int :=
  let rd := reg s
  let b := actProg s
  let row := (txPins rd b p).getD (g * (codeSize rd b p - 1) + (c - 1)) 0
  let rx := (rxPins rd b p).getD r 0
  if (isMutual rd b p && passRole s p row != 1) || passRole s p rx != 2 then 0
  else ((q.coup.getD r []).getD (c - 1) 0 : Nat)

/-- R44, R79, R81: the charge that every edge of step j brings to column r: each electrode's coupling times the swing, with its sign. -/
def edgeCharge (s : State) (p g j r : Nat) (q : GroupInput) : Int :=
  let rd := reg s
  let b := actProg s
  if isMutual rd b p then
    q.vhv * ((rowsOfGroup rd b p g).map (slotOfRow rd b p)).foldl (fun a c => a + codeSign j c * coupling s p g c r q) 0
  else (vshMv rd b p : Int) * coupling s p g 1 r q

/-! ### The bushel-return integrator (R53, R54, R57); charges are scaled by 2,000 as `bushelOf` is -/

/-- The integrator: its output above the reset level, B, clocks until the next return may occur, whether 7 bushels or more were held
beyond the window, and whether B would have left its range. -/
structure Integ where
  out : Int
  b : Int := 0
  wait : Nat := 0
  full : Bool := false
  stop : Bool := false
  deriving DecidableEq, Repr

/-- R54: the output lies inside the residue window. -/
def inWindow (u : Int) (x : Integ) : Bool := decide (0 ≤ x.out) && decide (x.out < u)

/-- R57: 7 bushels or more lie beyond the window. -/
def beyond (u : Int) (x : Integ) : Bool := decide (8 * u ≤ x.out) || decide (x.out ≤ -7 * u)

/-- R54: one clock's return: one bushel out above the window, one in below it, at most once in two clocks; B stops at its limits (R57). -/
def bushelReturn (u : Int) (x : Integ) : Integ :=
  if 0 < x.wait then { x with wait := x.wait - 1 }
  else if u ≤ x.out then
    (if x.b < 2047 then { x with out := x.out - u, b := x.b + 1, wait := 1 } else { x with stop := true })
  else if x.out < 0 then
    (if -2048 < x.b then { x with out := x.out + u, b := x.b - 1, wait := 1 } else { x with stop := true })
  else x

/-- One SENSE clock: charge arrives, the excursion is watched, a return may occur. -/
def integClock (u c : Int) (x : Integ) : Integ :=
  let x1 := { x with out := x.out + c }
  bushelReturn u { x1 with full := x1.full || beyond u x1 }

/-- n clocks, of which clock i brings f (i + 1) - f i. -/
def integWith (u : Int) (f : Nat → Int) : Nat → Nat → Integ → Integ
  | 0, _, x => x
  | n + 1, i, x => integWith u f n (i + 1) (integClock u (f (i + 1) - f i) x)

/-- n clocks of returns alone; once the output lies inside the window, the rest of them only pass. -/
def integDrain (u : Int) : Nat → Integ → Integ
  | 0, x => x
  | n + 1, x => if inWindow u x then { x with wait := x.wait - (n + 1) } else integDrain u n (integClock u 0 x)

/-- R54: the part of an edge's charge c that has arrived i clocks after its slot began: with recycling, `early` thousandths over the first
3 clocks; the rest evenly over the edge time len. -/
def arrivedBy (c : Int) (recycle : Bool) (early len i : Nat) : Int :=
  let e := if recycle then c * (min early 1000 : Nat) / 1000 else 0
  let from_ := if recycle then 3 else 0
  if i < from_ then e * i / 3 else e + (c - e) * (min (i - from_) len : Nat) / (max len 1 : Nat)

/-- One edge, and the `d` clocks until the next edge, or until the returns stop. -/
def integEdge (u c : Int) (recycle : Bool) (early len d : Nat) (x : Integ) : Integ :=
  let n := min d ((if recycle then 3 else 0) + len)
  integDrain u (d - n) (integWith u (arrivedBy c recycle early len) n 0 x)

/-- The clocks from each edge to the next, and from the last to the end of settle. -/
def edgeGaps (half : Nat) : List Nat → List Nat
  | [] => []
  | [_] => [half + 8]
  | a :: b :: l => (b - a) :: edgeGaps half (b :: l)

/-- R55, R57: the residue and the composite; an output outside the window gives Res 0 or 4095 and SAT. -/
def residuePhase (u : Int) (x : Integ) : Comp :=
  let res := if x.out < 0 then 0 else if u ≤ x.out then 4095 else x.out * 4096 / u
  ⟨x.b * 4096 + res, x.full || x.stop || !(inWindow u x)⟩

/-- R53 to R57: a step of column r with edges at the times given. Further charge of the step arrives with its first edge (log 8). -/
def stepComp (s : State) (p g j r : Nat) (q : GroupInput) (times : List Nat) : Comp :=
  let u := bushelOf s p r q
  let c := 2000 * edgeCharge s p g j r q
  let x0 := integClock u (2000 * (q.extra.getD (j - 1) []).getD r 0) { out := 0 }
  residuePhase u ((edgeGaps (halfPeriod (reg s) (runFq s p)) times).foldl
    (fun x d => integEdge u c (recycles s p) q.early (edgeClocks (reg s) (actProg s) p (runFq s p)) d x) x0)

/-- The results of the present step of a run; SAT too in the receive groups that a clamp or shield condition marked (R52, R67). -/
def stepComps (s : State) (run : Run) : List Comp :=
  let rx := rxPins (reg s) (actProg s) run.pass
  (List.range rx.length).map (fun r =>
    let x := stepComp s run.pass run.group (run.done.length + 1) r run.input run.now.times
    { x with sat := x.sat || bit run.sat (rx.getD r 0 / 32) })

/-! ### A run through its steps (R83, R91 to R95) -/

/-- The run is complete: its end is where the next step's reset would begin. -/
def runDone (run : Run) : Bool := decide (run.steps ≤ run.done.length)

/-- The present step has ended: settle and residue follow its last edge, then the next step's reset (R53, R83); a NOISY step counts (R95). -/
def stepEnds (s : State) (b : Burst) (run : Run) : Run :=
  { run with done := run.done ++ [stepComps s run], now := { start := stepEndAt b run.now }, sat := 0
             noisy := run.noisy + b2n run.noisyStep, noisyStep := false }

/-- What comes next in a step that does not hold, and when: an edge, a hold, or the step's end. A first edge for which no quiet time comes before
4 T_step holds too (DESIGN CHOICE, log 120). -/
def runNext (s : State) (b : Burst) (run : Run) : Nat × Run :=
  if b.edges ≤ run.now.times.length then (stepEndAt b run.now, stepEnds s b run)
  else match nextEdge s b run.now with
    | some t => (t, { run with now := edgeMade run.now t })
    | none => (dueAt b run.now, { run with now := { run.now with hold := true } })

/-- The run goes on, to a hold, to its completion, or to what comes after the time `lim`. -/
def runTo (s : State) (b : Burst) (lim : Option Nat) : Nat → Run → Run
  | 0, run => run
  | n + 1, run =>
    if runDone run || run.now.hold then run
    else
      (let x := runNext s b run
       match lim with
       | none => runTo s b lim n x.2
       | some t => if x.1 ≤ t then runTo s b lim n x.2 else run)

/-- Bound of the events of a run: at most 63 steps of 128 edges, a hold and an end each. -/
def runFuel : Nat := 63 * 136

/-- R78: the run goes on to a hold or its completion. -/
def runOn (s : State) (run : Run) : Run := runTo s (burstOf s run.pass) none runFuel run
/-- What the run has come to at the present time. -/
def runAt (s : State) (t : Nat) (run : Run) : Run := runTo s (burstOf s run.pass) (some t) runFuel run

/-- A run that begins at a time. -/
def newRun (s : State) (p g at_ : Nat) (q : GroupInput) : Run :=
  { pass := p, group := g, input := q, steps := stepsPerGroup (reg s) (actProg s) p, now := { start := at_ } }

/-- R95: the run is kept, and the NOISY steps it has completed since are counted. -/
def putRun (s : State) (run : Run) : State :=
  let before := match s.car.run with
    | none => 0
    | some r => r.noisy
  { s with car := { s.car with run := some run, noisycnt := satAdd s.car.noisycnt (run.noisy - before) } }

/-- The run in progress brought to the present time. -/
def runPresent (s : State) : State :=
  match s.car.run with
  | none => s
  | some run => putRun s (runAt s (carClk s) run)

/-- R86, R95: what runs is stopped at a time, its NOISY steps until then counted; TX electrodes move to the rest levels of the step that was
running, with edges of 20 ns. -/
def runStop (s : State) (t : Nat) : State :=
  match s.car.run with
  | none => s
  | some run0 =>
    let run := runAt s t run0
    let s1 := putRun s run
    { s1 with car := { s1.car with run := none
                                   shown := some { pass := run.pass, group := run.group, step := min run.steps (run.done.length + 1), ended := true, rest := some (t + 4) } } }

/-- R86: what runs is stopped, and every group and pass of the frame that has not run is STALE. -/
def staleRest (s : State) (t : Nat) : State := staleLeft (runStop s t)

/-! ### Phases (R53, R67, R96, R147) -/

/-- Where a time lies in the step or interval in progress. -/
inductive Phase where
  | none | reset | burst | hold | settle | residue | listen
  deriving DecidableEq, Repr

/-- R53: the phase of a run at time t, to which it has been brought. -/
def runPhase (s : State) (run : Run) (t : Nat) : Phase :=
  let b := burstOf s run.pass
  if isListen (reg s) (actProg s) run.pass then
    (if run.now.start ≤ t then .none
     else if run.now.start - listenClocks (reg s) (actProg s) run.pass ≤ t then .listen else .reset)
  else if runDone run then .none
  else if run.now.hold then .hold
  else if t < run.now.start + 8 then .reset
  else if run.now.times.length < b.edges || decide (t < dueAt b run.now) then .burst
  else if t < dueAt b run.now + 8 then .settle
  else .residue

/-- The phase of the carousel at the present time. -/
def phaseAt (s : State) : Phase :=
  match s.car.run with
  | none => .none
  | some run => runPhase s (runAt s (carClk s) run) (carClk s)

/-! ### What drives each pin (R40, R42 to R45, R50 to R52, R74, R82, R86, R88, R92) -/

/-- A pin or shield output: at VSS, floating, held at 0.9 V, connected to its amplifier's virtual ground, following the self waveform
(`odd`: after an odd number of its edges), or driven as TX, high or low (none: a TX pin outside the code group, whose level the manual
does not give). -/
inductive Drive where
  | vss | hiz | mid | amp
  | wave (odd : Bool)
  | tx (high : Option Bool)
  deriving DecidableEq, Repr

/-- When the crossbar leaves the step shown: at D, or when one that was stopped has moved to its rest levels (R86, R88). -/
def shownUntil (s : State) (x : StepShown) : Nat := x.rest.getD (deadlineAt s)

/-- The step that gives the crossbar and the levels: the run's present one, or the last of the frame; none in idle. -/
def stepShown (s : State) : Option StepShown :=
  if !s.beat.running then none
  else match s.car.run with
    | none => s.car.shown.filter (fun x => decide (carClk s < shownUntil s x))
    | some run =>
      let r := runAt s (carClk s) run
      if deadlineAt s ≤ carClk s then none
      else some { pass := r.pass, group := r.group, step := min r.steps (r.done.length + 1), edge := r.now.times.length
                  cut := r.now.hold && decide (carClk s + 4 < quietAt s (burstOf s r.pass) r.now) }

/-- R43, R45: a TX pin's level: its rest level under the step's sign, reversed by every edge. -/
def txLevel (s : State) (x : StepShown) (pin : Nat) : Option Bool :=
  let r := reg s
  let b := actProg s
  match (txPins r b x.pass).findIdx? (fun e => e == pin) with
  | none => none
  | some t =>
    if groupOfRow r b x.pass t != x.group then none
    else some (codeNeg x.step (slotOfRow r b x.pass t) != (x.edge % 2 == 1))

/-- R40, R50, R51: the self waveform is given: a self pass is in progress. -/
def selfShown (s : State) (x : StepShown) : Bool := isSelf (reg s) (actProg s) x.pass && !x.ended

/-- R40, R50, R51, R82, R92: what a role means in the step shown. From the end of a self pass to the next pass or the end of the frame's passes the RX
pins stay at the waveform's rest level and the SH pins are at 0.9 V (DESIGN CHOICE, log 139). -/
def roleDrive (s : State) (x : StepShown) (pin role : Nat) : Drive :=
  let self := isSelf (reg s) (actProg s) x.pass
  match role with
  | 1 => .tx (txLevel s x pin)
  | 2 => if x.cut then .mid else if self then .wave (x.edge % 2 == 1) else .amp
  | 3 => if selfShown s x then .wave (x.edge % 2 == 1) else .mid
  | 5 => .hiz
  | _ => .vss

/-- R368: the repair test of shield driver k runs, which drives it in self passes. -/
def shdTested (s : State) (k : Nat) : Bool := s.flt.busy && s.flt.tested == some ⟨4, BitVec.ofNat 8 k⟩

/-- R60, R68, R368: the sub-step of the gap that is in progress. -/
def subNow (s : State) : Option Sub := s.ana.subs.find? (fun x => decide (x.burst ≤ carClk s + 8) && decide (carClk s < x.upTo))

/-- R68: the burst edges that an integrity sub-step has made: four, half a microsecond apart. -/
def subEdges (s : State) (x : Sub) : Nat := if carClk s < x.burst then 0 else min 4 ((carClk s - x.burst) / 100 + 1)

/-- R68, R42: what drives a pin in sub-step k of the integrity test of block b: the driven pins follow the test swing, the others of the block are
at virtual ground in the neighbour test, and every pin not driven or measured is at GND. A fenced pin floats, unless it is the one under repair. -/
def subDrive (s : State) (x : Sub) (b k pin : Nat) : Drive :=
  if pinFenced s pin && x.pin != some pin then .hiz
  else if pin / 32 != b then .vss
  else if pin % 2 == k % 2 then .wave (subEdges s x % 2 == 1)
  else if 2 ≤ k then .amp
  else .vss

/-- R40, R42, R88: what the carousel drives on pin E`pin`. -/
def carDrive (s : State) (pin : Nat) : Drive :=
  let idle := match idleRole s pin with
    | 5 => Drive.hiz
    | 3 => .mid
    | _ => .vss
  match stepShown s with
  | none => idle
  | some x => if passRole s x.pass pin = 0 then (if idleRole s pin = 3 then roleDrive s x pin 3 else idle) else roleDrive s x pin (passRole s x.pass pin)

/-- R40, R42, R68, R88, R388: what drives pin E`pin`; it floats without a supply and during power-on reset. -/
def pinDrive (s : State) (pin : Nat) : Drive :=
  if !s.pwr.powered then .hiz
  else match subNow s with
    | some x => (match x.el with
      | some (b, k) => subDrive s x b k pin
      | none => carDrive s pin)
    | none => carDrive s pin

/-- R51, R52, R368, R388: what SHDk shows: a fenced one floats, unless it is under its repair test; a driven one follows the self waveform in self
passes and holds 0.9 V at other times; else VSS or floating. Without a supply it floats. -/
def shdDrive (s : State) (k : Nat) : Drive :=
  if !s.pwr.powered || (bit s.ana.shdFen k && !(shdTested s k)) then .hiz
  else if shdTested s k || rbit (reg s) 0x100 (4 + k) then
    (match stepShown s with
     | none => .mid
     | some x => if selfShown s x then .wave (x.edge % 2 == 1) else .mid)
  else if rbit (reg s) 0x100 (8 + k) then .hiz
  else .vss

end Sys2Proof.Machine
end

