-- ==== Sys2Proof/Machine/Analog.lean ====
section
/-! DEFINITION. Shield drivers, clamps, the CREF calibration and the electrode integrity test (R40 to R70, R376). -/
namespace Sys2Proof.Machine

/-! ### Marks on the steps in progress (R52, R57, R67) -/

/-- The RX columns of the run whose amplifiers lie in the marked receive groups take SAT in the latest completed step. -/
def satLast (s : State) (run : Run) (groups : Byte) : Run :=
  let rx := rxPins (reg s) (actProg s) run.pass
  match run.done.reverse with
  | [] => run
  | last :: before =>
    { run with done := (last.mapIdx (fun i c => if bit groups (rx.getD i 0 / 32) then { c with sat := true } else c) :: before).reverse }

/-- R67: the present step of the run is in its burst, a hold within it, its settle or its residue. -/
def satPhase (s : State) (run : Run) : Bool :=
  match runPhase s run (carClk s) with
  | .burst | .hold | .settle | .residue => true
  | _ => false

/-- R67: an event, which has lasted 20 ns when it is detected (R66), marks SAT the step that it finds in its burst, settle or residue, and the
step before where that ended within those 20 ns (log 10). -/
def markSat (s : State) (groups : Byte) : State :=
  let s1 := runPresent s
  match s1.car.run with
  | none => s1
  | some run =>
    let r1 := if carClk s1 < run.now.start + 4 then satLast s1 run groups else run
    let r2 := if satPhase s1 run then { r1 with sat := r1.sat ||| groups } else r1
    { s1 with car := { s1.car with run := some r2 } }

/-- R52: every result of the self step in progress is SAT. -/
def markSelf (s : State) : State :=
  let s1 := runPresent s
  match s1.car.run with
  | none => s1
  | some run =>
    if !(isSelf (reg s1) (actProg s1) run.pass) then s1
    else { s1 with car := { s1.car with run := some (if runDone run then satLast s1 run 0xFF else { run with sat := 0xFF }) } }

/-- R52: how long the limit of driver k was active in each overload of the last 100 ms, the latest at the present time. -/
def shdNote (s : State) (k ns : Nat) : State :=
  { s with ana := { s.ana with shdTimes := upd s.ana.shdTimes k (fun l => l.filter (fun x => decide (s.beat.now ≤ x.1 + 20000000)) ++ [(s.beat.now, ns)]) } }

/-- R52: the present step is a self step: its result is still to come, or it has just ended. -/
def selfRuns (s : State) : Bool := s.car.run.any (fun run => isSelf (reg s) (actProg s) run.pass)

/-- R51, R52: driver k follows the self waveform, so that its limit can be active at the end of an edge. -/
def shdWaves (s : State) (k : Nat) : Bool := selfRuns s && (shdTested s k || (rbit (reg s) 0x100 (4 + k) && !(bit s.ana.shdFen k)))

/-- SHD_OVERLOAD (R52): the limit of a driver that follows the self waveform was active at the end of an edge, and for a time in all: OVL sets, and
every amplifier's result in the self step is SAT; a repair test of the driver fails (R368). -/
def execShdOverload (x : ShdLimit) (s : State) : Res :=
  .next (if !(shdWaves s x.unit) then s else
    let s0 := shdNote { s with ana := { s.ana with shdOvl := putBit s.ana.shdOvl x.unit true } } x.unit x.ns
    let s1 := if shdTested s x.unit then { s0 with flt := { s0.flt with good := false } } else s0
    markSelf s1)

/-- R52: the limit has been active for 1 ms within the last 100 ms. -/
def shdDue (s : State) (k : Nat) : Bool :=
  decide (1000000 ≤ ((s.ana.shdTimes.getD k []).filter (fun x => decide (s.beat.now ≤ x.1 + 20000000))).foldl (fun a x => a + x.2) 0)

/-- SHD_FENCE (R52). -/
def execShdFence (k : Fin 4) (s : State) : Res := .next (if shdDue s k then fenceShd s k else s)

/-- R160: an event on the inputs of channel ch marks its conversions in whose slots it fell, and is remembered for the track part in progress. It has
lasted 20 ns when it is detected (R66, log 10). -/
def clampAux (s : State) (ch : Nat) : State :=
  { s with aux := { s.aux with
      clampAt := upd s.aux.clampAt ch (fun _ => some s.beat.now)
      flight := s.aux.flight.map (fun c => if c.ch = ch ∧ s.beat.now < c.slot + 8 + 4 then { c with clip := true } else c) } }

/-- CLAMP_EVENT (R67, R160): flag, counter and interrupt for an event 1 us or more after the last; the overlapped step or
conversions are marked. The detectors work while SENSE runs. -/
def execClampEvent (g : Fin 16) (sinceNs : Nat) (s : State) : Res :=
  .next (
    if !(senseRuns s) then s
    else
      (let s1 := if sinceNs < 1000 then s
         else raise { s with ana := { s.ana with
           clampFlg := putBit s.ana.clampFlg g true, clampCnt := upd s.ana.clampCnt g satInc } } 14
       if g.val < 8 then markSat s1 (BitVec.ofNat 8 (2 ^ g.val))
       else clampAux s1 (g.val - 8)))

/-! ### Calibration (R60 to R65) -/

/-- R61: frames between calibration steps. -/
def calInterval (s : State) : Nat := 2 ^ (min (rf (reg s) 0x102 2 4) 8 + 8)

/-- R61: the interval has passed and calibration is on. A step that is already due stays due when EN is cleared (DESIGN CHOICE, log 11). -/
def calExpired (s : State) : Bool := rbit (reg s) 0x102 0 && decide (calInterval s ≤ s.ana.calFrames)

def calSetDue (s : State) : State := if calExpired s then { s with ana := { s.ana with calDue := true } } else s

/-- CAL_DUE (R61). -/
def execCalDue (s : State) : Res := .next (calSetDue s)

/-- R61, R70: a write of CALCFG; REQ makes one step due. -/
def calcfgWrite (s : State) (w : W16) : State :=
  let s1 := stage s 0x102 w
  if bit w 8 then { s1 with ana := { s1.ana with calDue := true } } else s1

/-- CALIBRATION_REQUEST (R61). -/
def execCalibrationRequest (w : W16) (s : State) : Res := .next (cfgWrites s (fun s => calcfgWrite s w))

/-- R62: the trim that makes the trimmed bushel nominal. -/
def trimFull (t0 : Int) (x : CalReading) : Int := roundDiv ((2000 + t0) * (x.m1 - x.m0) - 2000 * 204800) 204800

/-- R63: a calibration that fails gives no trim. -/
def calAssess (t0 : Int) (x : CalReading) : Option Int :=
  let t := trimFull t0 x
  if x.sat0 || x.sat1 || decide (8192 < x.m0.natAbs) || decide (t < -128) || decide (127 < t) then none else some t

/-- R63: the receive groups whose amplifier of index i is judged. -/
def calJudged (s : State) (i : Nat) : List Nat :=
  (List.range 8).filter (fun g => !(bit s.ana.ampFen (16 * g + i)) && !(bit s.aux.adcFen (g / 2)))

/-- R63: a step is a reference fault. -/
def crefFault (judged failed : Nat) : Bool :=
  decide (6 ≤ failed) || (decide (judged < 8) && decide (2 ≤ failed) && decide (3 * judged ≤ 4 * failed))

/-- R62, R63: what one judged amplifier takes from its reading. -/
def calTake (a : Amp) (x : CalReading) : Amp :=
  match calAssess a.trim x with
  | none => { a with fails := a.fails + 1, due := a.due || decide (2 ≤ a.fails + 1) }
  | some t =>
    { a with fails := 0, done := true
             wait := some (if a.done then a.trim + limit (-4) 4 (t - a.trim) else t) }

/-- R65: a step has completed. -/
def calCount (s : State) : State :=
  { s with ana := { s.ana with
      calCnt := s.ana.calCnt + 1, calBeat := s.beat.no, calDue := false, calFrames := 0, calForced := false
      startTrim := s.ana.startTrim || decide (0 < s.ana.startCal), startCal := s.ana.startCal - 1 } }

/-- R60 to R65: a completed calibration step with the readings of receive groups 0 to 7. -/
def calRun (s : State) (rd : List CalReading) : State :=
  let i := s.ana.calCnt.toNat % 16
  let js := calJudged s i
  let read := fun (g : Nat) => rd.getD g ⟨0, 0, false, false⟩
  let failed := js.filter (fun g => (calAssess (getAmp s (16 * g + i)).trim (read g)).isNone)
  if crefFault js.length failed.length then
    calCount (logEv s 0x04 i (w16 (failed.foldl (fun m g => m + 2 ^ g) 0)))
  else calCount (js.foldl (fun s g => setAmp s (16 * g + i) (fun a => calTake a (read g))) s)

/-- R60: the readings of receive groups 0 to 7: M0, M1 and their SAT marks. -/
def calReadings (m0 m1 : List Int) (sat : List (Bool × Bool)) : List CalReading :=
  (List.range 8).map (fun g => ⟨m0.getD g 0, m1.getD g 0, (sat.getD g (false, false)).1, (sat.getD g (false, false)).2⟩)

/-- R65, R24: calibration and integrity tests run in SCAN and WATCH, while SENSE scans, and not in the hold-over beats. -/
def gapWork (s : State) : Bool := inRun s && senseRuns s && (s.pwr.mode == .scan || s.pwr.mode == .watch) && !(scanEnded s)

/-! ### The frame gap (R60, R61, R68, R88) -/

/-- R61: the forced gap of this frame has not yet been followed by a pass. -/
def inForcedGap (s : State) : Bool := s.ana.calGap && s.car.passes.all (fun p => !p.started)

/-- R61: a due calibration step has its gap: at least 19.84 us left once the passes have ended. -/
def calGapFree (s : State) : Bool := s.ana.calDue && frameRan s && decide (3968 ≤ gapClocks s)

/-- The phases of a gap's sub-steps from burst to residue, in which no lamp edge falls (R96). -/
def subsNote (s : State) (l : List Sub) : State := { s with ana := { s.ana with subs := s.ana.subs ++ l } }

/-- R60: the first n sub-steps of a calibration step that begins at t. -/
def calSubs (s : State) (t n : Nat) : List Sub := (List.range n).map (fun j => { burst := calUpTo s t j + 8, upTo := calUpTo s t (j + 1) })

/-- R68: the four sub-steps of an integrity test step on block b that begins at t: 2.24 us each. -/
def elSubs (t b : Nat) (pin : Option Nat) : List Sub :=
  (List.range 4).map (fun j => { burst := t + 448 * j + 8, upTo := t + 448 * (j + 1), el := some (b, j), pin := pin })

/-- A step of the gap has run up to time t. -/
def gapUsed (s : State) (t : Nat) : State := { s with car := { s.car with lastEnd := t } }

/-- R64: when a start-up step begins: at once, or at the end of the one before. -/
def startUpAt (s : State) : Nat := (s.ana.subs.getLast?.map (fun x => max x.upTo s.beat.clk)).getD s.beat.clk

/-- CAL_STEP (R60 to R65): a start-up step; a due step in a forced gap of 20 us; or a due step in a gap of at least 19.84 us. A step that quiet
windows stretch beyond the gap is abandoned (R61). -/
def execCalStep (m0 m1 : List Int) (sat : List (Bool × Bool)) (s : State) : Res :=
  .next (unheld s (
    let rd := calReadings m0 m1 sat
    if !(gapWork s) then s
    else if 0 < s.ana.startCal then calRun (subsNote s (calSubs s (startUpAt s) 16)) rd
    else if inForcedGap s && s.ana.calDue then (if calEndAt s 0 ≤ 4000 then calRun (subsNote s (calSubs s 0 16)) rd else s)
    else if calGapFree s then
      (let t := calEndAt s s.car.lastEnd
       if t ≤ deadlineAt s then calRun (subsNote (gapUsed s t) (calSubs s s.car.lastEnd 16)) rd else s)
    else s))

/-- CAL_FORCE (R61): a step has been due for 1 s without a gap. -/
def execCalForce (s : State) : Res :=
  .next (if s.ana.calDue && gapWork s then logEv { s with ana := { s.ana with calForced := true } } 0x03 0 0 else s)

/-- Pending trims take force (R62). -/
def applyTrims (s : State) : State :=
  { s with ana := { s.ana with
      startTrim := false
      amps := s.ana.amps.map (fun a => match a.wait with
        | none => a
        | some t => { a with trim := t, wait := none }) } }

/-- R62, R64: pending trims take force at this frame boundary without a fence. -/
def trimsDue (s : State) : Bool := !(rbit (reg s) 0x102 1) || s.ana.startTrim

/-- TRIM_APPLY (R62): at the frame boundary, and at no other time. -/
def execTrimApply (s : State) : Res := .next (if trimsDue s && atBoundary s then applyTrims s else s)

/-- R63: an amplifier due for fencing is fenced. -/
def ampFenceDue (s : State) (a : Nat) : State :=
  if (getAmp s a).due then refreshFen (fenceAmp (setAmp s a (fun x => { x with due := false })) a) else s

/-- AMP_FENCE (R63): at the frame boundary, and at no other time. -/
def execAmpFence (a : Fin 128) (s : State) : Res := .next (if atBoundary s then ampFenceDue s a else s)

/-! ### Electrode integrity test (R68, R69) -/

def elInterval (s : State) : Nat := 2 ^ (rf (reg s) 0x104 1 3 + 4)
def elExpired (s : State) : Bool := rbit (reg s) 0x104 0 && decide (elInterval s ≤ s.ana.chkFrames)

def elSetDue (s : State) : State :=
  if elExpired s then { s with ana := { s.ana with chkDue := true, chkFrames := 0 } } else s

/-- ELCHK_DUE (R68). -/
def execElchkDue (s : State) : Res := .next (elSetDue s)

/-- R68: the pin is used by the program in force and not excluded. -/
def elTested (s : State) (pin : Nat) : Bool :=
  let r := reg s
  let b := actProg s
  !(rbit r (0x200 + 2 * pin) 6) && (passList r b).any (fun p => roleOf r b p pin != 0)

/-- R68: the next block in ascending order, cyclically, that holds a tested pin. -/
def elNextBlock (s : State) : Option Nat :=
  ((List.range 8).map (fun i => (s.ana.chkBlk + 1 + i) % 8)).find? (fun b => (List.range 32).any (fun j => elTested s (32 * b + j)))

/-- R68: the verdict of a pin. A saturated reading is SHORT whatever CMAX is (R69). -/
def elVerdict (s : State) (pin : Nat) (m : ElMeas) : BitVec 2 :=
  let lim := reg s (0x201 + 2 * pin)
  let cmin := fld lim 0 8
  let cmax := fld lim 8 8
  let cmut := rf (reg s) 0x104 8 8
  if m.sat || (cmax != 0 && decide (2000 * cmax < m.cap)) then 2
  else if m.cap < 500 * cmin then 1
  else if cmut != 0 && decide (500 * cmut < m.coup) then 3
  else 0

/-- R69: one pin's verdict is written; the same fault twice in a row makes the pin due for fencing, and is a renewed fault of one that is fenced
(R367, R369). A test of the block from which the pin was excluded leaves its earlier verdict as it is (DESIGN CHOICE, log 111). -/
def elTake (s : State) (pin : Nat) (m : ElMeas) : State :=
  let v := elVerdict s pin m
  let twice := v != 0 && s.ana.earlier.getD pin 0 == v
  let fenced := bit s.ana.elFen pin
  let s1 := { s with ana := { s.ana with
      earlier := upd s.ana.earlier pin (fun _ => v)
      verdict := if v = 0 ∧ fenced then s.ana.verdict else upd s.ana.verdict pin (fun _ => v)
      elDue := if twice && !fenced then putBit s.ana.elDue pin true else s.ana.elDue } }
  if twice && fenced then refault s1 3 pin else s1

/-- R68: what a step measures at the pins of its block: capacitance with its SAT mark, and coupling. -/
def elMeasures (caps : List (Nat × Bool)) (coups : List Nat) : List ElMeas := List.zipWith (fun c k => ⟨c.1, c.2, k⟩) caps coups

/-- R68, R69: the step on block b, with the measurements of its pins. What a fenced converter samples is not used (R156): its pins are not judged. -/
def elRun (s : State) (b : Nat) (ms : List ElMeas) : State :=
  let s1 := ((List.range 32).filter (fun j => elTested s (32 * b + j) && !(bit s.aux.adcFen (b / 2)))).foldl
    (fun s j => match ms[j]? with
      | none => s
      | some m => elTake s (32 * b + j) m) s
  { s1 with ana := { s1.ana with chkBlk := b, chkDue := false, chkLate := false } }

/-- ELCHK_STEP (R68): a due step in a gap of at least 8.96 us once the passes have ended; calibration goes first, and a forced gap does not
serve. -/
def execElchkStep (caps : List (Nat × Bool)) (coups : List Nat) (s : State) : Res :=
  .next (unheld s (
    if !(gapWork s) || !s.ana.chkDue || !(frameRan s) || decide (gapClocks s < 1792) || inForcedGap s || calGapFree s then s
    else match elNextBlock s with
      | none => s
      | some b => elRun (subsNote (gapUsed s (s.car.lastEnd + 1792)) (elSubs s.car.lastEnd b none)) b (elMeasures caps coups)))

/-- R69: a pin due for fencing is fenced. -/
def elFenceDue (s : State) (e : Nat) : State :=
  if bit s.ana.elDue e then
    refreshFen (fenceElec { s with ana := { s.ana with elDue := putBit s.ana.elDue e false } } e)
  else s

/-- ELEC_FENCE (R69): at the frame boundary, and at no other time. -/
def execElecFence (e : Fin 256) (s : State) : Res := .next (if atBoundary s then elFenceDue s e else s)

/-- ELCHKLATE (R376): a step has been due for 10 s; one entry until a step has run. -/
def execElchklate (s : State) : Res :=
  .next (if s.ana.chkDue && !s.ana.chkLate then logEv { s with ana := { s.ana with chkLate := true } } 0x1E 0 0 else s)

end Sys2Proof.Machine
end

