-- ==== Sys2Proof/Machine/AuxConv.lean ====
section
/-! DEFINITION. Converters, auxiliary channels, comparators, the sequencer and system calibration (R146 to R177). A conversion's slot begins
when its row comes, once the rules let it begin (log 31); what falls due by time alone is brought to the present by `auxNow`. -/
namespace Sys2Proof.Machine

def axKey (ch w : Nat) : Nat := 0x10010 + 8 * ch + w
def seqKey (i w : Nat) : Nat := 0x10080 + 4 * i + w
def axSingle (s : State) (ch : Nat) : Bool := rbit (reg s) (axKey ch 0) 0

/-- AUX work is done: RUN, SCAN or WATCH before the hold-over beats, and SENSE runs (R163, R165, R349). -/
def auxRuns (s : State) : Bool := inRun s && senseRuns s && (s.pwr.mode == .scan || s.pwr.mode == .watch) && !(scanEnded s)

/-- R163: the sequencer in force is stopped. -/
def seqStopped (s : State) : Bool := !(auxRuns s) || !(rbit (reg s) 0x10000 4)

/-! ### Excitations (R158, R159); voltages in microvolts -/

/-- R158: the set voltage of excitation j. -/
def excSet (s : State) (j : Nat) : Nat := 1000000 + 100000 * rf (reg s) (0x1000C + j) 1 4

/-- R158, R343, R388, R391: the voltage that EXCj regulates at its sense ball; none where it is held at VSS through 1 kiloohm, and in power-on
reset, where it is at high impedance (`excHiZ`). -/
def excDrive (s : State) (j : Nat) : Option Nat :=
  if s.pwr.powered && rbit (reg s) (0x1000C + j) 0 && !(bit s.aux.excOff j) && s.pwr.vhvOk then some (excSet s j) else none

/-- R388: the EXC balls are at high impedance, with their clamps active. -/
def excHiZ (s : State) : Bool := !s.pwr.powered

/-- What EXSj senses: the set voltage, unless the output is off or an event has said otherwise. -/
def excSense (s : State) (j : Nat) : Nat :=
  match excDrive s j with
  | none => 0
  | some v => (s.aux.exs.getD j none).getD v

/-- R159: EXSj senses less than half of its set voltage. -/
def excBad (s : State) (j : Nat) : Bool := decide (2 * excSense s j < excSet s j)

/-- R159: an enabled output is at its current limit. -/
def excLimited (s : State) (j : Nat) : Bool := bit s.aux.excLim j && (excDrive s j).isSome

/-- R177: EXCSTAT.REFBAD, which resets to 0 and is judged while SENSE runs. -/
def refBadNow (s : State) (j : Nat) : Bool := inRun s && senseRuns s && excBad s j

/-! ### Reserved uses of a converter (R147, R148, R154) -/

/-- R147: converter a is in a reserved use u clocks after the beat: the check slot, a residue phase of a step or of a sub-step in the gap, or for
ADC2 a listening interval. -/
def reservedAt (s : State) (a u : Nat) : Bool :=
  (s.beat.running && decide (u < 16))
  || s.ana.subs.any (fun x => decide (x.upTo ≤ u + 32) && decide (u < x.upTo))
  || (match s.car.run with
      | none => false
      | some run => decide (u < deadlineAt s) && (match runPhase s (runAt s u run) u with
          | .residue => true
          | .listen => a == 2
          | _ => false))

/-- A reserved use of converter a is in progress in one of n clocks from u. -/
def reservedIn (s : State) (a u n : Nat) : Bool := (List.range n).any (fun i => reservedAt s a (u + i))

/-- R148: a slot that began now would not end before the next reserved use of converter a is due, the next beat's check slot included. -/
def urgentMeets (s : State) (a : Nat) : Bool :=
  reservedIn s a s.beat.clk 8 || (s.beat.running && decide (s.beat.clk ≤ s.beat.period) && decide (s.beat.period < s.beat.clk + 8))

/-! ### Slots and discards (R149 to R151) -/

/-- R177: TACQ of a channel in SENSE clocks. -/
def acqClocks (s : State) (ch : Nat) : Nat := 100 * 2 ^ rf (reg s) (axKey ch 0) 4 2

/-- R149: a conversion is in its slot of eight clocks. -/
def slotNow (s : State) (c : Conv) : Bool := decide (c.slot ≤ s.beat.now) && decide (s.beat.now < c.slot + 8)

/-- R149: the converter is occupied by a slot. -/
def adcBusy (s : State) (a : Nat) : Bool := s.aux.flight.any (fun c => c.adc == a && slotNow s c)

/-- R149: the channel has tracked for TACQ since a time and since its previous slot. -/
def hasTracked (s : State) (ch since : Nat) : Bool := decide (max since (s.aux.tracked.getD ch 0) + acqClocks s ch ≤ s.beat.now)

def isSeq (c : Conv) : Bool := c.kind != .urgent

/-- R151: the sequenced conversion is discarded; its entry goes on with its remaining repeats, the discarded one included, after a fresh track
part from the end of its slot. -/
def convDiscard (s : State) (c : Conv) : State :=
  let s1 := { s with aux := { s.aux with discnt := satInc s.aux.discnt, flight := s.aux.flight.erase c } }
  if (c.kind == .cal) == s.aux.cal.active && (s.aux.cal.active || !(seqStopped s)) then
    { s1 with aux := { s1.aux with phase := .track, since := c.slot + 8, entry := c.entry, reps := c.rep - 1 } }
  else s1

/-- R148: an urgent conversion is discarded, and its request is served again first. -/
def urgentAgain (s : State) (c : Conv) : State :=
  { s with aux := { s.aux with flight := s.aux.flight.erase c, waiting := putBit s.aux.waiting c.ch true, first := some c.ch } }

/-- R148, R151: a conversion is discarded. -/
def convLost (s : State) (c : Conv) : State := if isSeq c then convDiscard s c else urgentAgain s c

/-- R150: a sequenced conversion in its slot is discarded. -/
def slotDiscard (s : State) : State := (s.aux.flight.filter (fun c => isSeq c && slotNow s c)).foldl convDiscard s

/-- R148, R150, R154: the check slot begins, and every conversion in its slot is discarded. -/
def checkBegins (s : State) : State :=
  let s1 := (s.aux.flight.filter (slotNow s)).foldl convLost s
  { s1 with aux := { s1.aux with checked := false } }

/-- R151, R153, R156: converter k is fenced, and every conversion on it whose result has not appeared is discarded. An urgent one is taken again
(DESIGN CHOICE, log 31). -/
def adcDrop (s : State) (k : Nat) : State :=
  ((s.aux.flight.filter (fun c => c.adc == k && decide (s.beat.now < c.slot + 18))).reverse).foldl convLost s

/-- R153: the converter that AUXADC and the fences give. -/
def wantedAdc (s : State) : Option Nat :=
  let a := rf (reg s) 0x10000 2 2
  if bit s.aux.adcFen a then [3, 2, 1, 0].find? (fun k => !(bit s.aux.adcFen k)) else some a

/-- R153: the converter in use follows. -/
def effSet (s : State) : State :=
  match wantedAdc s with
  | none => { s with aux := { s.aux with noAdc := true } }
  | some k => { s with aux := { s.aux with effAdc := BitVec.ofNat 2 k, noAdc := false } }

/-! ### Sequence loop boundaries (R163, R166, R172) -/

/-- R157: the channel converts against its excitation's sense line. -/
def ratiometric (s : State) (ch : Nat) : Bool := !(rbit (reg s) (axKey ch 0) 6)

/-- R157, R159: a condition of the excitation that a ratiometric channel names. -/
def excFaulty (s : State) (ch : Nat) : Bool :=
  let j := rf (reg s) (axKey ch 0) 7 2
  ratiometric s ch && (excBad s j || excLimited s j)

/-- R159: a condition that arises marks the conversions in their slot. -/
def excMarks (s : State) : State :=
  { s with aux := { s.aux with flight := s.aux.flight.map (fun c => if slotNow s c && excFaulty s c.ch then { c with clip := true } else c) } }

/-- R161: comparators newly enabled have their input's state still to take. -/
def cmpEnable (old new : Reader) (s : State) : State :=
  { s with aux := { s.aux with cmpNew := [0, 1, 2, 3].foldl (fun m k =>
      if rbit new (axKey k 5) 0 && !(rbit old (axKey k 5) 0) then putBit m k true else m) s.aux.cmpNew } }

/-- R166: the values that wait for the loop boundary take force, the later of two last. -/
def loopForce (s : State) : State :=
  let keep := reg s 0x10000 &&& deliveryBits 0x10000
  let s1 := s.regs.auxWait.foldl (fun s e =>
    setForce s e.1 (if e.1 = 0x10000 then (e.2 &&& ~~~(deliveryBits 0x10000)) ||| keep else e.2)) s
  effSet (excMarks { s1 with regs := { s1.regs with auxWait := [] } })

/-- The sequencer begins at entry 0, or stands still; t is the time of the boundary. -/
def seqBegin (s : State) (t : Nat) : State :=
  { s with aux := { s.aux with
      entry := if seqStopped s then s.aux.entry else 0
      phase := if seqStopped s then .stopped else .delay
      since := t, reps := 0 } }

/-- R172: a waiting calibration command begins: its channel tracks. -/
def calBegin (s : State) (t : Nat) : State :=
  { s with aux := { s.aux with
      phase := .track, since := t, reps := 0, cal := { s.aux.cal with active := true, got := 0, sum := 0, clip := false } } }

/-- R163, R166, R172: a sequence loop boundary at time t. -/
def seqLoop (s : State) (t : Nat) : State :=
  let s1 := loopForce s
  if s1.aux.cal.active then s1 else if s1.aux.cal.busy then calBegin s1 t else seqBegin s1 t

/-- R163, R164: the entry's last slot is done. -/
def seqNext (s : State) (t : Nat) : State :=
  let i := s.aux.entry
  if rbit (reg s) (seqKey i 0) 4 || i == 31 then seqLoop s t
  else { s with aux := { s.aux with entry := i + 1, phase := .delay, since := t, reps := 0 } }

/-- R164, R172: the repeats of the present entry, or of a calibration command. -/
def entryReps (s : State) : Nat := if s.aux.cal.active then 256 else rf (reg s) (seqKey s.aux.entry 0) 8 8 + 1

/-- R164: the DELAY of the present entry, at most 2^20 clocks. -/
def entryDelay (s : State) : Nat :=
  min 1048576 ((reg s (seqKey s.aux.entry 1)).toNat + 65536 * rf (reg s) (seqKey s.aux.entry 2) 0 5)

/-- The channel that the sequencer converts. -/
def seqChan (s : State) : Nat := if s.aux.cal.active then s.aux.cal.ch else rf (reg s) (seqKey s.aux.entry 0) 0 3

/-- R164: a slot ends at time t: the next repeat tracks, or the next entry follows. -/
def slotEnd (s : State) (t : Nat) : State :=
  if s.aux.reps < entryReps s then { s with aux := { s.aux with phase := .track, since := t } }
  else if s.aux.cal.active then { s with aux := { s.aux with phase := .stopped, since := t } }
  else seqNext s t

/-- The sequencer brought to the present time: a slot whose eight clocks have passed has ended (R149). -/
def auxNow (s : State) : State :=
  if s.aux.phase == .slot && decide (s.aux.since + 8 ≤ s.beat.now) then slotEnd s (s.aux.since + 8) else s

/-- R172: the command ends with an outcome; its end is a sequence loop boundary. -/
def calEnd (s : State) (res : BitVec 3) : State :=
  seqLoop { s with aux := { s.aux with cal := { s.aux.cal with busy := false, active := false, res := res } } } s.beat.now

/-- R153, R175: the converter in use follows; a calibration command, running or waiting, aborts where none is left. -/
def effUpdate (s : State) : State :=
  let s1 := effSet s
  if s1.aux.noAdc && s1.aux.cal.busy then calEnd s1 4 else s1

/-- R165, R172, R175: the mode leaves SCAN or WATCH: conversions and requests are discarded, and a calibration command aborts; its end is a
sequence loop boundary, at which the values that wait take force (R166). -/
def auxStop (s : State) : State :=
  let s1 := { s with aux := { s.aux with
      phase := .stopped, reps := 0, sum := 0, sumClip := false, flight := [], waiting := 0, first := none
      cal := if s.aux.cal.busy then { s.aux.cal with busy := false, active := false, res := 4 } else s.aux.cal } }
  if s.aux.cal.busy then loopForce s1 else s1

/-- R165, R161: SCAN or WATCH begins; `away`: after HOLD or DORMANT, or at RUN, when every age is 255 (R171). -/
def auxStart (s : State) (away : Bool) : State :=
  seqLoop { auxStop s with aux := { (auxStop s).aux with
    cmpNew := 0xF, clampAt := List.replicate 8 none, tracked := List.replicate 8 s.beat.now
    age := if away then List.replicate 8 255 else s.aux.age } } s.beat.now

/-! ### Raw codes and delivery (R157, R167 to R171) -/

/-- R157: the lowest and the highest raw code of a channel. -/
def rawLo (s : State) (ch : Nat) : Int := if axSingle s ch then 0 else -2048
def rawHi (s : State) (ch : Nat) : Int := if axSingle s ch then 4095 else 2047

/-- R157: the code before its limit; `free` counts the values drawn. -/
def rawCode (s : State) (ch : Nat) (x : AuxSample) (free : Nat) : Int :=
  let g : Int := 2 ^ rf (reg s) (axKey ch 0) 1 3
  let vref : Nat := if ratiometric s ch then x.vref else 1200000
  if vref = 0 then Config.noRefCode free else roundDiv (4096 * g * (x.vp - x.vn)) vref

/-- R157: both inputs lie within 0.3 to 1.3 V throughout. -/
def inputsValid (x : AuxSample) : Bool :=
  decide (300000 ≤ min x.lo (min x.vp x.vn)) && decide (max x.hi (max x.vp x.vn) ≤ 1300000)

/-- R160: a clamp of the channel's inputs responded in the track part, which began at `since`. -/
def clampSince (s : State) (ch since : Nat) : Bool :=
  match s.aux.clampAt.getD ch none with
  | none => false
  | some t => decide (since ≤ t)

/-- R157, R159, R160: the conversion is marked CLIP whatever its code; its track part began at `since`. An overload or REFBAD that held only in the
track part marks none: R159's conditions are judged in the slot (DESIGN CHOICE, log 141). -/
def sampleClip (s : State) (ch : Nat) (x : AuxSample) (since : Nat) : Bool :=
  let j := rf (reg s) (axKey ch 0) 7 2
  !(inputsValid x) || clampSince s ch since || excFaulty s ch || (ratiometric s ch && decide (2 * x.vref < excSet s j))

/-- R157: a conversion of a channel: its limited raw code and its CLIP mark. -/
def convert (s : State) (ch : Nat) (x : AuxSample) (since free : Nat) : Int × Bool :=
  let c := rawCode s ch x free
  let v := limit (rawLo s ch) (rawHi s ch) c
  (v, sampleClip s ch x since || c != v)

/-- Draws the free value that a conversion without a reference takes. -/
def drawRef (s : State) (ch : Nat) (x : AuxSample) : State :=
  if ratiometric s ch && x.vref == 0 then (draw s).2 else s

/-- R167: the corrected value in 1/16 counts. -/
def correct (s : State) (ch : Nat) (raw : Int) : Int :=
  ((16 * raw - (reg s (axKey ch 1)).toInt) * (reg s (axKey ch 2)).toNat + 8192) >>> 14

/-- R167: limits in counts and in 1/16 counts. -/
def cntLimit (s : State) (ch : Nat) (v : Int) : Int := if axSingle s ch then limit 0 4095 v else limit (-2048) 2047 v
def fineLimit (s : State) (ch : Nat) (v : Int) : Int := if axSingle s ch then limit 0 65535 v else limit (-32768) 32767 v

/-- R168: AUXDATA for a value in 1/16 counts. -/
def auxFormat (s : State) (ch : Nat) (left : Bool) (v : Int) : W16 :=
  if left then BitVec.ofInt 16 v else BitVec.ofInt 16 (cntLimit s ch ((v + 8) >>> 4))

/-- R166: ALIGN and CONSUMER take force with the next delivered result. -/
def deliveryForce (s : State) : State :=
  let d := deliveryBits 0x10000
  setForce s 0x10000 ((reg s 0x10000 &&& ~~~d) ||| (stg s 0x10000 &&& d))

/-- R169 to R171, R188: a result of a channel, in 1/16 counts and limited, is delivered. -/
def deliver (s0 : State) (ch : Nat) (v : Int) (clip urg : Bool) : State :=
  let s := deliveryForce s0
  let a := s.aux
  let left := rbit (reg s) 0x10000 0
  let s1 := { s with aux := { a with
      data := auxFormat s ch left v, ch := BitVec.ofNat 3 ch, urg := urg, clip := clip, valid := true
      ovr := a.ovr || a.valid
      lostch := if a.valid then a.ch else a.lostch
      last := upd a.last ch (fun _ => BitVec.ofInt 16 v)
      lclip := putBit a.lclip ch clip
      age := if clip then a.age else upd a.age ch (fun _ => 0) } }
  if urg then evalUrgentChannel s1 ch else s1

/-- R167: a result in counts: its value in 1/16 counts, and whether it was limited. -/
def countResult (s : State) (ch : Nat) (c : Int) : Int × Bool :=
  let n := (c + 8) >>> 4
  let v := cntLimit s ch n
  (16 * v, n != v)

/-- R167, R172: a result appears; `clip` is its mark. -/
def resultIn (s : State) (c : Conv) (clip : Bool) : State :=
  let x := correct s c.ch c.raw
  match c.kind with
  | .urgent => deliver s c.ch (countResult s c.ch x).1 (clip || (countResult s c.ch x).2) true
  | .each => deliver s c.ch (countResult s c.ch x).1 (clip || (countResult s c.ch x).2) false
  | .cal => { s with aux := { s.aux with cal := { s.aux.cal with got := s.aux.cal.got + 1, sum := s.aux.cal.sum + c.raw, clip := s.aux.cal.clip || clip } } }
  | .mean last n =>
    let sum := s.aux.sum + x
    let mk := s.aux.sumClip || clip
    if last then
      (let m := roundDiv sum n
       let v := fineLimit s c.ch m
       deliver { s with aux := { s.aux with sum := 0, sumClip := false } } c.ch v (mk || m != v) false)
    else { s with aux := { s.aux with sum := sum, sumClip := mk } }

/-! ### The rows -/

/-- R154: the expected check code at a beat, in counts, the same for every converter. -/
def checkCode (s : State) : Int :=
  let l := s.beat.no.toNat % 4
  let t := Config.checkTrim l
  512 + 1024 * (l : Int) + (if t = 1 then 1 else if t = 2 then -1 else 0)

/-- R146, R155: the deviation in 1/8 counts from the eight samples of a converter, each limited to 12 bits. -/
def checkDev (s : State) (samples : List Int) : Int := (samples.map (limit 0 4095)).foldl (fun a x => a + x) 0 - 8 * checkCode s

/-- R177: CHKLIM in counts; 0 and 1 act as 2. -/
def chkLim (s : State) : Nat := max 2 (rf (reg s) 0x10002 0 8)

/-- R155: a deviation of more than CHKLIM / 2 counts. -/
def devLarge (s : State) (d : Int) : Bool := decide (4 * chkLim s < d.natAbs)

/-- R155: converter k of the pair (k, j) has deviated. -/
def deviated (s : State) (k j : Nat) (d : Nat → Int) : Bool :=
  if bit s.aux.adcFen k then false
  else if bit s.aux.adcFen j then devLarge s (d k)
  else decide (8 * chkLim s < (d k - d j).natAbs) && devLarge s (d k)

/-- R156: a converter that has deviated is fenced; its conversions are used for nothing. -/
def fenceAdc (s0 : State) (k : Nat) : State :=
  let s := adcDrop s0 k
  let s1 := { s with aux := { s.aux with adcFail := putBit s.aux.adcFail k true, adcFen := putBit s.aux.adcFen k true } }
  effUpdate (refreshFen (fenceNote (refault s1 1 k) 0x08 k (BitVec.ofInt 16 (s.aux.chkdev.getD k 0))))

/-- R368: a repair test of a converter judges this check slot. -/
def adcTest (s : State) : State :=
  match s.flt.tested with
  | none => s
  | some u =>
    if s.flt.busy && u.cls == 1 then
      (let f := s.flt.frames + 1
       let g := s.flt.good && !(devLarge s (s.aux.chkdev.getD (u.idx.toNat % 4) 0))
       if f < 64 then { s with flt := { s.flt with frames := f, good := g } }
       else { s with flt := { s.flt with frames := f, good := g, busy := false, ok := g, res := if g then 1 else 2 } })
    else s

/-- R154: the check slot of the frame has completed, and has not been judged. -/
def checkDue (s : State) : Bool := auxRuns s && s.beat.running && decide (16 ≤ s.beat.clk) && !s.aux.checked

/-- CHECK_SLOT_DONE (R154 to R156): the eight samples of each converter. -/
def execCheckSlotDone (samples : List (List Int)) (s : State) : Res :=
  .next (
    if !(checkDue s) then s
    else
      (let d := fun k => checkDev s (samples.getD k [])
       let s0 := auxNow s
       let s1 := { s0 with aux := { s0.aux with checked := true, chkdev := [0, 1, 2, 3].map d } }
       let bad := [0, 1, 2, 3].filter (fun k => deviated s k (if k % 2 = 0 then k + 1 else k - 1) d)
       adcTest (bad.foldl fenceAdc s1)))

/-- R161: the thresholds of comparator k and its hysteresis, on the raw code scale. -/
def cmpLow (s : State) (k : Nat) : Int := 16 * (if axSingle s k then (rf (reg s) (axKey k 6) 0 8 : Int) else signed (rf (reg s) (axKey k 6) 0 8) 8)
def cmpHigh (s : State) (k : Nat) : Int := 16 * (if axSingle s k then (rf (reg s) (axKey k 6) 8 8 : Int) else signed (rf (reg s) (axKey k 6) 8 8) 8)
def cmpHys (s : State) (k : Nat) : Int := 8 * (rf (reg s) (axKey k 5) 3 3 : Int)

/-- R161: the state of comparator k for an input at `level`: it leaves the window beyond a threshold, and enters it past the hysteresis. A first
state is taken without hysteresis (DESIGN CHOICE, log 31). -/
def cmpInside (s : State) (k : Nat) (level : Int) : Bool :=
  let h := if bit s.aux.cmpNew k || bit s.aux.cmp k then 0 else cmpHys s k
  decide (cmpLow s k + h ≤ level) && decide (level ≤ cmpHigh s k - h)

/-- R162: the direction is selected. -/
def crossing (s : State) (k : Nat) (inside : Bool) : Bool :=
  match rf (reg s) (axKey k 5) 1 2 with
  | 0 => !inside
  | 1 => inside
  | _ => true

/-- R152, R150: an urgent request; a sequenced slot in progress is discarded. -/
def urgentRequest (s : State) (ch : Nat) : State :=
  let s1 := slotDiscard s
  { s1 with aux := { s1.aux with waiting := putBit s1.aux.waiting ch true } }

/-- COMPARATOR_CROSSING (R161, R162): comparator k has its input at `level` on the raw code scale, its own error included; the first state taken
is no crossing. -/
def execComparatorCrossing (k : Fin 4) (level : Int) (s : State) : Res :=
  .next (
    if !(auxRuns s) || !(rbit (reg s) (axKey k 5) 0) then s
    else
      (let inside := cmpInside s k level
       let fresh := bit s.aux.cmpNew k
       let changed := bit s.aux.cmp k != inside
       let s1 := { s with aux := { s.aux with cmp := putBit s.aux.cmp k inside, cmpNew := putBit s.aux.cmpNew k false } }
       if fresh || !changed || !(crossing s k inside) then s1
       else
         (let s2 := if rbit (reg s) (axKey k 5) 7 then urgentRequest s1 k else s1
          if rbit (reg s) (axKey k 5) 6 && s.pwr.mode == .watch then wakeEvent s2 4 .scan else s2)))

/-- R148, R152: the channel that is served next: one whose conversion a check slot took, then the lowest. -/
def nextUrgent (s : State) : Option Nat :=
  match s.aux.first with
  | some ch => if bit s.aux.waiting ch then some ch else (List.range 8).find? (fun k => bit s.aux.waiting k)
  | none => (List.range 8).find? (fun k => bit s.aux.waiting k)

/-- R148, R149: channel ch may take an urgent slot now. -/
def urgentFree (s : State) (ch : Nat) : Bool :=
  auxRuns s && !s.aux.noAdc && hasTracked s ch 0 && !(adcBusy s s.aux.effAdc.toNat) && !(urgentMeets s s.aux.effAdc.toNat)

/-- A conversion takes its slot at the present time. -/
def takeSlot (s : State) (ch : Nat) (x : AuxSample) (since : Nat) (kind : Deliver) : State :=
  let c := convert s ch x since s.beat.free
  let s1 := drawRef s ch x
  { s1 with aux := { s1.aux with
      tracked := upd s1.aux.tracked ch (fun _ => s.beat.now + 8)
      flight := s1.aux.flight ++ [{ ch := ch, raw := c.1, clip := c.2, kind := kind, adc := s.aux.effAdc.toNat, slot := s.beat.now
                                    entry := s.aux.entry, rep := s.aux.reps + 1 }] } }

/-- R150, R151: an urgent conversion takes the track-and-hold of the channel that the sequencer tracks. -/
def trackLost (s : State) (ch : Nat) : State :=
  if s.aux.phase == .track && seqChan s == ch then
    { s with aux := { s.aux with discnt := satInc s.aux.discnt, since := s.beat.now + 8 } }
  else s

/-- R152: an urgent conversion is counted, once whether or not it is taken again. -/
def urgentCount (s : State) (ch : Nat) : State :=
  { s with aux := { s.aux with
      waiting := putBit s.aux.waiting ch false, first := none
      urgcnt := if s.aux.first = some ch then s.aux.urgcnt else satInc s.aux.urgcnt } }

/-- URGENT_CONVERSION (R148, R150 to R152): the waiting channel that is served next takes its slot. -/
def execUrgentConversion (x : AuxInputs) (vref : Nat) (s : State) : Res :=
  .next (
    let s := auxNow s
    match nextUrgent s with
    | none => s
    | some ch =>
      if urgentFree s ch then takeSlot (trackLost (urgentCount s ch) ch) ch ⟨x, vref⟩ (s.beat.now - acqClocks s ch) .urgent else s)

/-- SEQ_ENTRY_START (R164): the entry's DELAY has elapsed. -/
def execSeqEntryStart (s : State) : Res :=
  .next (
    let s := auxNow s
    let t := s.aux.since + entryDelay s
    if s.aux.phase == .delay && !(seqStopped s) && decide (t ≤ s.beat.now) then { s with aux := { s.aux with phase := .track, since := t } } else s)

/-- R149, R150, R163, R172: the next sequenced repeat may take its slot now. -/
def seqFree (s : State) : Bool :=
  (s.aux.cal.active && auxRuns s || !(seqStopped s)) && !s.aux.noAdc && s.aux.waiting == 0 && s.aux.phase == .track
  && hasTracked s (seqChan s) s.aux.since && !(adcBusy s s.aux.effAdc.toNat) && !(reservedAt s s.aux.effAdc.toNat s.beat.clk)

/-- R164, R172: how the result of the repeat that comes next is delivered. -/
def seqKind (s : State) : Deliver :=
  if s.aux.cal.active then .cal
  else if rbit (reg s) (seqKey s.aux.entry 0) 3 then .mean (decide (entryReps s ≤ s.aux.reps + 1)) (entryReps s)
  else .each

/-- The next repeat takes its slot. -/
def seqSlot (s : State) (x : AuxSample) : State :=
  let s1 := takeSlot s (seqChan s) x s.aux.since (seqKind s)
  { s1 with aux := { s1.aux with reps := s.aux.reps + 1, phase := .slot, since := s.beat.now } }

/-- SEQ_CONVERSION (R150, R151, R164, R172): the next repeat takes its slot; it is discarded where a reserved use begins in it. -/
def execSeqConversion (x : AuxInputs) (vref : Nat) (s : State) : Res :=
  .next (
    let s := auxNow s
    if !(seqFree s) then s
    else if reservedIn s s.aux.effAdc.toNat (s.beat.clk + 1) 7 then slotDiscard (seqSlot s ⟨x, vref⟩)
    else seqSlot s ⟨x, vref⟩)

/-- AUX_RESULT (R149, R167 to R171, R374): the oldest result appears, ten clocks after its sample. -/
def execAuxResult (parityBad : Bool) (s : State) : Res :=
  .next (
    let s := auxNow s
    match s.aux.flight with
    | [] => s
    | c :: rest =>
      if s.beat.now < c.slot + 18 then s
      else resultIn { s with aux := { s.aux with flight := rest } } c (c.clip || parityBad))

/-- AUX_CHANNEL_UNMEASURABLE (R171, R36): the channel's AGE exceeds MAXAGE: its zones trip. -/
def execAuxChannelUnmeasurable (ch : Fin 8) (s : State) : Res :=
  .next (
    if auxUnmeasurable s ch then
      unheld s <| ((List.range 32).filter (fun z => zoneKind (reg s) z == 2 && zoneIdx (reg s) z % 8 == ch)).foldl
        (fun s z => setZone (tripZone s z) z (fun x => { x with unmeas := true })) s
    else s)

/-- EXC_OVERLOAD (R159): an enabled output reaches its current limit, or is no longer at it. -/
def execExcOverload (x : ExcLimit) (s : State) : Res :=
  .next (
    if !x.on then { s with aux := { s.aux with excLim := putBit s.aux.excLim x.out false } }
    else if rbit (reg s) (0x1000C + x.out) 0 && senseRuns s && !(bit s.aux.excLim x.out) then
      logEv (excMarks { s with aux := { s.aux with excOvl := putBit s.aux.excOvl x.out true, excLim := putBit s.aux.excLim x.out true } }) 0x0F x.out 0
    else s)

/-- What EXSj senses becomes another voltage. -/
def sensed (s : State) (j uv : Nat) : State := { s with aux := { s.aux with exs := upd s.aux.exs j (fun _ => some uv) } }

/-- EXC_REFBAD (R159): EXSj falls below half its set voltage. -/
def execExcRefbad (x : ExcSense) (s : State) : Res := .next (if 2 * x.uv < excSet s x.out then excMarks (sensed s x.out x.uv) else s)

/-- EXC_REFBAD_CLEAR (R159): EXSj returns to at least half its set voltage. -/
def execExcRefbadClear (x : ExcSense) (s : State) : Res := .next (if excSet s x.out ≤ 2 * x.uv then sensed s x.out x.uv else s)

/-- EXC_THERMAL_TRIP (R391): the driver switches off, which REFBAD shows. -/
def execExcThermalTrip (j : Fin 4) (s : State) : Res := .next (excMarks { s with aux := { s.aux with excOff := putBit s.aux.excOff j true } })

/-- EXC_THERMAL_RECOVER (R391). -/
def execExcThermalRecover (j : Fin 4) (s : State) : Res := .next { s with aux := { s.aux with excOff := putBit s.aux.excOff j false } }

/-! ### System calibration (R172 to R175) -/

/-- R172, R175: a command aborts: its end is a sequence loop boundary; where nothing converts, the values that wait take force. -/
def calAbort (s : State) : State :=
  if auxRuns s then calEnd s 4 else loopForce { s with aux := { s.aux with cal := { s.aux.cal with busy := false, active := false, res := 4 } } }

/-- R172, R175, R177: a write of AXCAL. A command for which no converter is available, or in the hold-over beats, aborts at once. -/
def axcalWrite (s0 : State) (w : W16) : State :=
  let s := auxNow s0
  if s.aux.cal.busy then { s with aux := { s.aux with cal := { s.aux.cal with ign := true } } }
  else
    (let cmd := fld w 4 2
     if cmd == 1 || cmd == 2 then
       (let c := { s.aux.cal with active := false, ch := fld w 0 3, span := cmd == 2 }
        if s.aux.noAdc || !(auxRuns s) then calAbort { s with aux := { s.aux with cal := c } }
        else if seqStopped s then calBegin { s with aux := { s.aux with cal := { c with busy := true } } } s.beat.now
        else { s with aux := { s.aux with cal := { c with busy := true } } })
     else s)

/-- AXCAL_ZERO (R172): an AXCAL write. -/
def execAxcalZero (w : W16) (s : State) : Res := .next (cfgWrites s (fun s => axcalWrite s w))

/-- AXCAL_SPAN (R172): an AXCAL write. -/
def execAxcalSpan (w : W16) (s : State) : Res := .next (cfgWrites s (fun s => axcalWrite s w))

/-- AXCAL_START (R172): a loop boundary has come, or the sequencer stands still. -/
def execAxcalStart (s : State) : Res :=
  .next (
    let s := auxNow s
    if s.aux.cal.busy && !s.aux.cal.active && seqStopped s then calBegin s s.beat.now else s)

/-- R175: a coefficient set by a command replaces a staged host write to it. -/
def calCoef (s : State) (w : Nat) (v : W16) : State :=
  let key := axKey s.aux.cal.ch w
  let s1 := setBoth s key v
  { s1 with regs := { s1.regs with auxWait := s1.regs.auxWait.filter (fun e => e.1 != key) } }

/-- R173: ZERO. -/
def calZero (s : State) (sum : Int) : State :=
  let o := roundDiv sum 16
  if -32768 ≤ o ∧ o ≤ 32767 then calEnd (calCoef s 1 (BitVec.ofInt 16 o)) 1
  else calEnd (calCoef (draw s).2 1 (Config.ofsRange (draw s).1)) 1

/-- R174: the target, signed in differential mode. -/
def spanTarget (s : State) : Int :=
  let v := reg s 0x10009
  if axSingle s s.aux.cal.ch then v.toNat else v.toInt

/-- R174, R175: SPAN. -/
def calSpan (s : State) (sum : Int) : State :=
  let a := roundDiv sum 16 - (reg s (axKey s.aux.cal.ch 1)).toInt
  let g := roundDivI (16384 * spanTarget s) a
  if a = 0 ∨ g ≤ 0 ∨ 65536 ≤ g then calEnd s 3 else calEnd (calCoef s 2 (BitVec.ofInt 16 g)) 1

/-- AXCAL_DONE (R172 to R175): the 256 conversions of the command for channel ch are in. -/
def execAxcalDone (ch : Fin 8) (s : State) : Res :=
  .next (
    if !(s.aux.cal.busy && s.aux.cal.active) || s.aux.cal.ch != ch || decide (s.aux.cal.got < 256) then s
    else if s.aux.cal.clip then calEnd s 2
    else if s.aux.cal.span then calSpan s s.aux.cal.sum
    else calZero s s.aux.cal.sum)

/-! ### AUXDATA (R169) -/

/-- R169: a read of AUXDATA by a side. -/
def auxTake (s : State) (side : Side) : State :=
  if (side == .carud) == rbit (reg s) 0x10000 1 then
    { s with aux := { s.aux with valid := false, rch := s.aux.ch, rurg := s.aux.urg, rclip := s.aux.clip } }
  else s

/-- R8, R166: a write of AUX page 0. -/
def auxWrite (s : State) (w : Nat) (v : W16) : State :=
  if w = 3 then { s with aux := { s.aux with adcFail := s.aux.adcFail &&& ~~~(BitVec.ofNat 4 v.toNat) } }
  else if w = 6 then { s with aux := { s.aux with excOvl := s.aux.excOvl &&& ~~~(BitVec.ofNat 4 v.toNat) } }
  else if w = 7 then axcalWrite s v
  else if w = 8 then { s with aux := { s.aux with cal := { s.aux.cal with ign := s.aux.cal.ign && !(bit v 4) } } }
  else plainWrite s (0x10000 + w) v

end Sys2Proof.Machine
end

