-- ==== Sys2Proof/Machine/Lamps.lean ====
section
/-! DEFINITION. The lamp drivers (R96, R200 to R203, R391): PWM periods and edges in time, diagnosis, and the diagnostic pulse. Lamp times are
SENSE clocks since power-up. -/
namespace Sys2Proof.Machine

/-- R201, R24: the lamps run; in hold-over beats only the beat oscillator and the links do. -/
def lampsRun (s : State) : Bool :=
  s.pwr.powered && inRun s && senseRuns s && (s.pwr.mode == .scan || s.pwr.mode == .watch) && !(scanEnded s) && s.pwr.vfldOk

/-- Every sink off (R201, R341). -/
def lampsOff (s : State) : State :=
  { s with out := { s.out with lamps := s.out.lamps.map (fun l => { l with on := false, edge := none, since := if l.on then s.beat.now else l.since }) } }

/-! ### Times (R96, R200) -/

/-- R200: the PWM period, 80 ns times LAMPPER. -/
def lampPeriod (l : Lamp) : Nat := 16 * l.per

/-- R200: the on-time round(P * D / 4096), rounded to the 80 ns of P, halves up (log 43). -/
def lampOnTime (l : Lamp) : Nat := 16 * ((l.per * l.duty.toNat + 2048) / 4096)

/-- R200: the lamp's first turn-on after time t: k * P/8 after the start of a period; periods start at multiples of P (log 43). -/
def lampNext (l : Lamp) (k t : Nat) : Nat :=
  let p := max 1 (lampPeriod l)
  let ph := 2 * l.per * k
  if t < ph then ph else ph + p * ((t - ph) / p + 1)

/-- R96: an edge may occur now: in a reset phase, in a hold, or between passes, and not in the burst, settle or residue of a sub-step of the gap. -/
def lampEdgeFree (s : State) : Bool :=
  !(s.ana.subs.any (fun x => decide (x.burst ≤ s.beat.clk) && decide (s.beat.clk < x.upTo))) &&
  (match phaseAt s with
   | .none | .reset | .hold => true
   | _ => false)

/-- The lamp's last edge was at least 5 us ago. -/
def lampLong (s : State) (l : Lamp) : Bool := decide (l.since + 1000 ≤ s.beat.now)

/-- An edge is made now. -/
def lampSwitch (s : State) (k : Nat) (on : Bool) : State := setLamp s k (fun l => { l with on := on, edge := none, since := s.beat.now })

/-! ### Diagnosis (R202, R203) -/

/-- R202: LAMPDIAG takes a state; IRQSTAT.LAMP is set when the lamp becomes OPEN or SHORT. -/
def lampShow (s : State) (k : Nat) (d : BitVec 2) : State :=
  let s1 := setLamp s k (fun l => { l with diag := d })
  if 2 ≤ d.toNat ∧ (getLamp s k).diag ≠ d then raise s1 8 else s1

/-- R202: the on-time shows a SHORT. The voltage of a sink that its limiter keeps off shows none (R391; DESIGN CHOICE, log 118). -/
def lampShorted (l : Lamp) (x : LampOn) : Bool := x.level == .high && !l.hot

/-- R202, R391: the on-time shows OPEN: it did not reach the current, with the sink voltage low or the sink kept off by its limiter. -/
def lampOpen (l : Lamp) (x : LampOn) : Bool := !x.reached && (x.level == .low || l.hot)

/-- R202: what an on-time of at least 5 us shows; shorter ones show nothing. A lamp stuck at ground shows SHORT. -/
def lampDiagnose (s : State) (k : Nat) (x : LampOn) : State :=
  let old := getLamp s k
  if !(lampLong s old) then s
  else
    (let s1 := setLamp s k (fun l => { l with
        age := 0, beats := 0, idle := 0
        short := l.short || lampShorted l x
        on := l.on && !(lampShorted l x) })
     let verdict : BitVec 2 := if lampShorted old x then 3 else if lampOpen old x then 2 else 0
     lampShow s1 k (if old.gnded then 3 else verdict))

/-- R203: the lamp has had no on-time of 5 us for 1,024 periods and is not pulsed: no diagnosis takes place. -/
def lampUnverified (l : Lamp) : Bool := !l.dmode && decide (1024 ≤ l.idle)

/-- R202: what an off-time of at least 5 us shows. While the lamp is UNVERIFIED under DIAGMODE = 0 the off-time shows nothing, GNDED included
(R203: no diagnosis takes place; DESIGN CHOICE, log 112). -/
def lampOffTime (s : State) (k : Nat) (below : Bool) : State :=
  if !(lampLong s (getLamp s k)) || lampUnverified (getLamp s k) then s
  else if below then lampShow (setLamp s k (fun l => { l with gnded := true })) k 3
  else setLamp s k (fun l => { l with gnded := false })

/-! ### Commands -/

/-- R200: the lamp words take force at the start of the lamp's period. -/
def lampLoad (s : State) (k : Nat) : State :=
  let c := rf (stg s) (0x4D08 + k) 0 6
  let p := (stg s 0x4D01).toNat
  setLamp s k (fun l => { l with
    cur := BitVec.ofNat 6 (if 60 < c then 60 else c)
    duty := BitVec.ofNat 12 (rf (stg s) (0x4D10 + k) 0 12)
    per := if p < 500 then 500 else if 62500 < p then 62500 else p
    dmode := rbit (stg s) 0x4D00 0 })

/-- R200, R202, R391: the sink conducts in its on-time, unless its limiter keeps it off. -/
def lampSinks (l : Lamp) : Bool := l.on && !l.hot

/-- R96, R200: a pulse of `len` begins now: one that is on stays on for len more at least, a deferred off-edge included, as a pulse is never shortened; one
that is off turns on, or waits where R96 does not allow the edge. -/
def lampPulse (s : State) (k len : Nat) : State :=
  let l := getLamp s k
  if l.on then setLamp s k (fun l => { l with len := max l.len (s.beat.now - l.since + len), edge := none })
  else
    (let s1 := setLamp s k (fun l => { l with len := len })
     if lampEdgeFree s1 then lampSwitch s1 k true else setLamp s1 k (fun l => { l with edge := some true }))

/-- R96, R200: an on-time of 0: a lamp whose pulse is over turns off, at once where R96 allows the edge; a pulse that a deferral has moved into this
period is not shortened, and its off-edge comes when it is due. -/
def lampDark (s : State) (k : Nat) : State :=
  if !(getLamp s k).on || decide (s.beat.now < (getLamp s k).since + (getLamp s k).len) then s
  else if lampEdgeFree s then lampSwitch s k false
  else setLamp s k (fun l => { l with edge := some false })

/-- LAMP_PERIOD_START (R200): the lamp's turn-on time has come: its words take force and its on-time begins, if it is not 0; the off-time just
past, or the last period of a lamp continuously on, is diagnosed (R202). -/
def execLampPeriodStart (k : Fin 8) (x : LampStart) (on : LampOn) (s : State) : Res :=
  .next (
    let old := getLamp s k
    if s.beat.now < old.next then s
    else
      (let s1 := if !(lampsRun s) then s else if old.on then lampDiagnose s k on else lampOffTime s k x.below
       let s2 := lampLoad s1 k
       let s3 := setLamp s2 k (fun l => { l with
         next := lampNext l k s.beat.now, begun := s.beat.now, idle := if lampsRun s then l.idle + 1 else l.idle, hot := l.hot && !x.cooled })
       let l := getLamp s3 k
       if !(lampsRun s) || l.short then (if l.on then lampSwitch s3 k false else setLamp s3 k (fun l => { l with edge := none }))
       else if lampOnTime l == 0 then lampDark s3 k
       else lampPulse s3 k (lampOnTime l)))

/-- R200, R202: the on-time ends and is diagnosed; the edge waits where R96 does not allow it. -/
def lampEnd (s : State) (k : Nat) (x : LampOn) : State := lampSwitch (lampDiagnose s k x) k false

/-- LAMP_OFF_EDGE (R96, R200, R202): the on-time has passed since the on-edge, unless D = 4095. -/
def execLampOffEdge (k : Fin 8) (reached : Bool) (level : LampLevel) (s : State) : Res :=
  .next (
    let l := getLamp s k
    if !l.on || l.duty == 4095 || decide (s.beat.now < l.since + l.len) then s
    else if lampEdgeFree s then lampEnd s k ⟨reached, level⟩
    else setLamp s k (fun l => { l with edge := some false }))

/-- LAMP_EDGE_DEFERRED (R96): the deferred edge occurs, once it may. -/
def execLampEdgeDeferred (k : Fin 8) (x : LampOn) (s : State) : Res :=
  .next (
    if !(lampEdgeFree s) then s
    else match (getLamp s k).edge with
      | none => s
      | some true => if lampsRun s && !(getLamp s k).short then lampSwitch s k true else setLamp s k (fun l => { l with edge := none })
      | some false => lampEnd s k x)

/-- LAMP_DIAG_PULSE (R203): 1,024 periods without an on-time of at least 5 us: a 5 us pulse at the lamp's turn-on time, whose edges R96 places and
whose end is diagnosed, or the lamp shows UNVERIFIED, whatever it showed (log 112). The off-time just past is diagnosed as at a period's start (R202). -/
def execLampDiagPulse (k : Fin 8) (below : Bool) (s : State) : Res :=
  .next (
    let l := getLamp s k
    if l.idle < 1024 || !(lampsRun s) then s
    else if !l.dmode then lampShow s k 1
    else if l.cur == 0 || l.short || (l.on && l.duty == 4095) || s.beat.now != l.begun then s
    else lampPulse (if l.on then s else lampOffTime s k below) k 1000)

/-- LAMP_THERMAL_TRIP (R391): the sink reaches 150 degrees and switches off; its on-times go on, without current, and are diagnosed. -/
def execLampThermalTrip (k : Fin 8) (s : State) : Res := .next (setLamp s k (fun l => { l with hot := true }))

/-- R202: LAMPAGE counts in units of 256 beats. -/
def lampsAge (s : State) : State :=
  { s with out := { s.out with lamps := s.out.lamps.map (fun l =>
      if l.beats < 255 then { l with beats := l.beats + 1 } else { l with beats := 0, age := satInc l.age }) } }

/-- R200, R202: LAMPFLT: a 1 enables a lamp's sink again. -/
def lampfltWrite (s : State) (v : W16) : State :=
  { s with out := { s.out with lamps := s.out.lamps.mapIdx (fun k l => if bit v k then { l with short := false } else l) } }

end Sys2Proof.Machine
end

