-- ==== Sys2Proof/Machine/Listen.lean ====
section
/-! DEFINITION. The noise listener (R82, R97): the charge samples that ADC2 forms of each listened amplifier, and the level of their Goertzel
power at a frequency. -/
namespace Sys2Proof.Machine

/-! ### Charge samples (R82) -/

/-- What an amplifier's output and returns show: bushels and the residue, in 1/4096 of a bushel (R55). -/
def integRead (u : Int) (x : Integ) : Int := (residuePhase u x).m

/-- R82: the samples, in 1/4096 of a bushel: the integrator takes each charge evenly over its four clocks, and a sample is what has been added
since the one before. Charges are scaled as `bushelOf` is. -/
def listenSamples (u : Int) : List Int → Integ → List Int
  | [], _ => []
  | c :: rest, x =>
    let y := integWith u (arrivedBy c false 0 4) 4 0 x
    (integRead u y - integRead u x) :: listenSamples u rest y

/-- R82: the 20 ns charges of a listening interval: 25 for each 0.5 us of LEN. -/
def listenCount (s : State) (p : Nat) : Nat := listenClocks (reg s) (actProg s) p / 4

/-- R82: the samples of the amplifier of RX column r, from the charges in zeptocoulombs that arrive there in the interval. -/
def listenColumn (s : State) (run : Run) (r : Nat) (charges : List Int) : List Int :=
  let u := bushelOf s run.pass r run.input
  listenSamples u ((charges.take (listenCount s run.pass)).map (fun c => 2000 * c)) { out := 0 }

/-! ### Goertzel power (R97) -/

/-- Fractional bits of the recurrence. -/
def fracOne : Int := 2 ^ 40

/-- The terms of the cosine's series, x and its square in units of `fracOne`: the sum of n terms from t, the k-th power's term. -/
def cosTerms (xx : Int) : Nat → Nat → Int → Int
  | 0, _, _ => 0
  | n + 1, k, t => t + cosTerms xx n (k + 1) (-(t * xx / fracOne) / ((2 * k + 1) * (2 * k + 2) : Nat))

/-- 2 cos(4 pi / h): the coefficient of a half period of h SENSE clocks at one sample in four clocks (R76). -/
def goertzelCoeff (h : Nat) : Int :=
  let x := (4 * 3454217652358 : Int) / (max 1 h : Nat)
  2 * cosTerms (x * x / fracOne) 16 0 fracOne

/-- The recurrence s <- x + c s1 - s2 over the samples. -/
def goertzelRun (c : Int) : List Int → Int × Int → Int × Int
  | [], s => s
  | x :: rest, s => goertzelRun c rest (x * 2 ^ 20 + c * s.1 / fracOne - s.2, s.1)

/-- |X|^2, in units of 2^-40 of a sample's square. -/
def goertzelPower (c : Int) (xs : List Int) : Nat :=
  let s := goertzelRun c xs (0, 0)
  (s.1 * s.1 + s.2 * s.2 - c * s.1 / fracOne * s.2).toNat

/-- The decimal digits of a number, of at most n. -/
def digits : Nat → Nat → Nat
  | 0, _ => 0
  | n + 1, x => if x = 0 then 0 else 1 + digits n (x / 10)

/-- The greatest L with 10^L <= (a/b)^40, for numbers above 0. -/
def level40 (a b : Nat) : Int :=
  let fuel := 16384
  if b ≤ a then (digits fuel (a ^ 40 / b ^ 40) : Int) - 1 else -(digits fuel ((b ^ 40 - 1) / a ^ 40) : Int)

/-- R97: the level of an amplifier's samples at half period h: the power of the tone, 2 |X|^2 / N^2, in 0.25 dB relative to the square of 1 fC
rms, rounded down or up as the device does (log 15). Samples without power have no level, and the manual states none (log 15). -/
def toneLevel (u : Int) (h : Nat) (xs : List Int) : Int :=
  let p := goertzelPower (goertzelCoeff h) xs
  if p = 0 then Config.silentLevel h
  else level40 (2 * p * u.natAbs ^ 2) (xs.length ^ 2 * 2 ^ 40 * (2000 * 4096 * 1000000) ^ 2) + (if Config.levelUp xs h then 1 else 0)

/-- R97: the level of frequency k: the largest of the listened amplifiers, in the range of NOISEk. -/
def listenLevel (s : State) (run : Run) (charges : List (List Int)) (k : Nat) : Int :=
  let cols := List.range (colCount (reg s) (actProg s) run.pass)
  let one := fun (r : Nat) => toneLevel (bushelOf s run.pass r run.input) (halfPeriod (reg s) k) (listenColumn s run r (charges.getD r []))
  (cols.map (fun r => limit (-32767) 32767 (one r))).foldl max (-32767)

end Sys2Proof.Machine
end

