-- ==== Sys2Proof/Machine/Carousel.lean ====
section
/-! DEFINITION. The carousel's rows: passes, groups and steps in time (R84 to R86, R91 to R95), decoding and its checks (R80, R127, R128,
R371), LISTEN (R97), SYN sources (R89, R94) and hops (R98). Times are SENSE clocks from the beat; a run goes on by itself to a hold or to
its end (runOn), and is brought to the present time where an event of the present meets it (runPresent). -/
namespace Sys2Proof.Machine

/-! ### Axis-first (R124, R125) -/

/-- R124: whether the pin counts as active in AXIS pass q. -/
def axisPinActive (s : State) (q pin : Nat) : Bool :=
  match (rxPins (reg s) (actProg s) q).findIdx? (fun e => e == pin) with
  | none => true
  | some i => axisActive s q (rf (reg s) (pipeKey (actProg s) q 5) 0 12) i

/-- R124: an axis-first pass whose AXIS step was measured with valid baselines. -/
def axisFirst (s : State) (p : Nat) : Option Nat :=
  let r := reg s
  let b := actProg s
  let q := rf r (passKey b p 4) 8 4
  if isMutual r b p && rbit r (passKey b p 4) 12 && (getPass s q).bvalid && (getPass s q).stale == 0 && (getPass s q).ended != 0
  then some q else none

/-- R124: rows (and columns) that lie in the candidate set: active ones and their neighbours; none where no intersection is. -/
def candidates (s : State) (p : Nat) : Option (List Nat × List Nat) :=
  match axisFirst s p with
  | none => none
  | some q =>
    let tx := txPins (reg s) (actProg s) p
    let rx := rxPins (reg s) (actProg s) p
    let ra := (List.range tx.length).filter (fun t => axisPinActive s q (tx.getD t 0))
    let ca := (List.range rx.length).filter (fun c => axisPinActive s q (rx.getD c 0))
    if ra.isEmpty || ca.isEmpty then some ([], []) else some (ra, ca)

/-- R124: row t is an active row or next to one. -/
def nearAny (l : List Nat) (i : Nat) : Bool := l.any (fun j => decide (j ≤ i + 1) && decide (i ≤ j + 1))

/-- R125: the groups that hold no candidate row. -/
def skippedGroups (s : State) (p : Nat) (c : List Nat × List Nat) : List Nat :=
  (List.range (groupsOf s p)).filter (fun g => !((rowsOfGroup (reg s) (actProg s) p g).any (nearAny c.1)))

/-- R129: the CRC-32 over a row's delta words, high byte first. -/
def rowCrc (ws : List W16) : W32 := crc32 (ws.flatMap be16)

/-- R102: the pipeline works: SCAN, and CORE runs. -/
def pipeWorks (s : State) (p : Nat) : Bool :=
  s.pwr.mode == .scan && coreRuns s && !(getPass s p).pipeFen && ownsArea (reg s) (actProg s) p

/-- Bytes written into Granary, with valid check bits (R209). -/
def wrGran (s : State) (off : Nat) (bs : List Byte) : State :=
  let a := granBase + off
  let ok := fun (w : Nat) => !(decide (a < 4 * w + 4) && decide (4 * w < a + bs.length))
  let s1 := wrBytes s a bs
  { s1 with mem := { s1.mem with bad := s1.mem.bad.filter ok, soft := s1.mem.soft.filter ok } }

def le16 (v : W16) : List Byte := [BitVec.ofNat 8 v.toNat, BitVec.ofNat 8 (v.toNat / 256)]
def le32 (v : W32) : List Byte := (List.range 4).map (fun i => BitVec.ofNat 8 (v.toNat / 256 ^ i))

/-- R116: the delta image of a frame. -/
def imgOf (seq : W16) : Nat := seq.toNat % 2

/-- R107, R116, R129: writes a row of delta words and its CRC into an image. -/
def wrDeltaRow (s : State) (p img t : Nat) (ws : List W16) : State :=
  let r := reg s
  let b := actProg s
  let base := gbase r b p
  let s1 := wrGran s (base + deltaOff r b p img (t * colCount r b p)) (ws.flatMap le16)
  wrGran s1 (base + checkOff r b p t + 4 + 4 * img) (le32 (rowCrc ws))

/-- R125: a group without a candidate row: SKIP, and no time. The pipeline writes its deltas as 0 when it finishes the frame. -/
def skipGroup (s : State) (p g : Nat) : State := endGroup (setPass s p (fun x => { x with skip := putBit x.skip g true })) p g

/-! ### Passes and groups -/

/-- The earlier passes of the frame have ended. -/
def earlierEnded (s : State) (p : Nat) : Bool := ((framePasses s).filter (fun q => decide (q < p))).all (passEnded s)

/-- R110: a pass that runs for the first time after reset is reseated. -/
def firstRun (s : State) (p : Nat) : State :=
  if (getPass s p).seen then s else setPass (reseatPass s p) p (fun x => { x with seen := true })

/-- R84: the pass starts at the later of its slot offset, 20 us later in a frame with a forced gap, and the end of the previous pass. -/
def passAt (s : State) (p : Nat) : Nat := max (slotClocks (reg s) (actProg s) p + frameShift s) s.car.time

/-- PASS_START (R84, R124, R125): the pass starts at the time `at_`, which is the rule's; candidates are formed and groups skipped. -/
def execPassStart (p : Fin 16) (at_ : Nat) (s : State) : Res :=
  .next (unheld s (
    if !(passRuns s p) || (getPass s p).started || passEnded s p || !(earlierEnded s p) || s.car.run.isSome || at_ != passAt s p then s
    else
      (let s1 := firstRun s p
       let c := candidates s1 p
       let s2 := setPass { s1 with car := { s1.car with time := passAt s1 p } } p (fun x => { x with started := true, cand := c })
       match c with
       | none => s2
       | some c => (skippedGroups s2 p c).foldl (fun s g => skipGroup s p g) s2)))

/-- R99: the LISTEN pass does not run: ADC2 or a listened amplifier is fenced. -/
def listenBlocked (s : State) (p : Nat) : Bool :=
  bit s.aux.adcFen 2 || (rxPins (reg s) (actProg s) p).any (fun e => bit s.ana.ampFen (ampOfPin (reg s) e))

/-- R99: LISTENOFF is logged when this begins. -/
def listenSkip (s : State) (p : Nat) : State :=
  let s1 := if s.car.listenOff then s else logEv s 0x0C p 0
  endGroup { s1 with car := { s1.car with listenOff := true } } p 0

/-- The group that runs next: every lower one has ended. -/
def isNext (s : State) (p g : Nat) : Bool := (groupsLeft s p).head? == some g

/-- R82, R154: when the listening interval of a LISTEN pass begins: after its reset of 40 ns, which extends to the end of the check slot in
a pass that starts with the beat. -/
def listenFrom (t : Nat) : Nat := if t = 0 then 16 else t + 8

/-- R101: the run begins; CARSTAT.PASS names its pass. -/
def runBegins (s : State) (run : Run) : State := { s with car := { s.car with run := some run, pass := BitVec.ofNat 4 run.pass } }

/-- GROUP_START (R83, R84, R85): the next group, self step or LISTEN pass starts at the time `at_`, without a gap after the one before, or is STALE where its
nominal end lies beyond D, or VHV is low for a MUTUAL pass (R343). A LISTEN pass that a fence blocks and that D would also stop is blocked:
LISTENOFF and no STALE mark (R99; DESIGN CHOICE, log 109). -/
def execGroupStart (p : Fin 16) (g at_ : Nat) (q : GroupInput) (s : State) : Res :=
  .next (unheld s (
    let r := reg s
    let b := actProg s
    if !(passRuns s p) || !(getPass s p).started || s.car.run.isSome || !(isNext s p g) || at_ != s.car.time then s
    else if isListen r b p && listenBlocked s p then listenSkip s p
    else if decide (deadlineAt s < at_ + groupClocks r b p (runFq s p)) || (isMutual r b p && !s.pwr.vhvOk) then staleGroup s p g
    else if isListen r b p then
      (let t := listenFrom at_ + listenClocks r b p
       runBegins { s with car := { s.car with listenOff := false } }
         { newRun s p 0 at_ q with done := [[]], steps := 1, now := { start := t } })
    else runBegins s (newRun s p g at_ q)))

/-- The run in progress, gone on to a hold or to its end. -/
def runForward (s : State) : Option Run := s.car.run.map (runOn s)

/-- QUIET_HOLD_END (R92): the next segment of the held step begins. -/
def execQuietHoldEnd (s : State) : Res :=
  .next (unheld s (match runForward s with
    | none => s
    | some run =>
      let b := burstOf s run.pass
      if !run.now.hold || needsNoisy s b run.now then s
      else putRun s { run with now := segmentBegins s b run.now }))

/-- NOISY_COMPLETION (R93): the remaining edges follow at the half period, and the step is NOISY. -/
def execNoisyCompletion (s : State) : Res :=
  .next (unheld s (match runForward s with
    | none => s
    | some run =>
      let b := burstOf s run.pass
      if !run.now.hold || !(needsNoisy s b run.now) then s
      else putRun s { run with now := forceEdges b run.now, noisyStep := true }))

/-- R86: the run is complete, and was before D. -/
def runInTime (s : State) (run : Run) : Bool := runDone run && decide (run.now.start ≤ deadlineAt s)

/-- DEADLINE_REACHED (R86, R87): a run that is not complete at D is stopped there, and what has not run is STALE. -/
def execDeadlineReached (s : State) : Res :=
  .next (unheld s (match runForward s with
    | none => s
    | some run =>
      if !s.beat.running || runInTime s run then s
      else
        (let s1 := staleRest s (deadlineAt s)
         { s1 with car := { s1.car with deadline := true, time := deadlineAt s, lastEnd := deadlineAt s } })))

/-! ### Decoding (R80, R127, R128) -/

def compAt (run : Run) (j r : Nat) : Comp := (run.done.getD (j - 1) []).getD r {}

/-- R80: the steps in which slot c is negative. -/
def negSteps (n c : Nat) : List Nat := ((List.range (n - 1)).map (fun j => j + 1)).filter (fun j => codeNeg j c)

/-- R128: the exact sum S of slot c and column r, with any error injected on its path. -/
def slotSum (run : Run) (n c r : Nat) (errs : List PathError) : Int :=
  (negSteps n c).foldl (fun a j => a + (compAt run j r).m) 0
    + (errs.filter (fun e => e.slot = c ∧ e.col = r)).foldl (fun a e => a + e.off) 0

/-- R80: N from S: rounded division by n/2, halves toward positive. -/
def decodeN (k : Nat) (sum : Int) : Int := roundShift (-sum) k

/-- R127: the step check C_j. -/
def stepCheck (run : Run) (cols j : Nat) : Nat := residue ((List.range cols).foldl (fun a r => a + (compAt run j r).m) 0)

/-- R128: the prediction K_S of slot c. -/
def sumCheck (run : Run) (n cols c : Nat) : Nat := residue ((negSteps n c).foldl (fun a j => a + stepCheck run cols j) (0 : Int))

/-- R128: the predicted row check K_N of slot c. -/
def rowCheck (run : Run) (n k cols c : Nat) (errs : List PathError) : Nat :=
  let h : Int := if k = 0 then 0 else 2 ^ (k - 1)
  let u := (List.range cols).foldl (fun a r => a + (-(slotSum run n c r errs) + h) % 2 ^ k) 0
  residue ((-(sumCheck run n cols c : Int) + cols * h - u) * (32761 ^ k : Nat))

/-- R80, R108: N as the node's 24 bits hold it; a free value where it does not fit (log 3). -/
def fitN (n : Int) : Int := if -8388608 ≤ n ∧ n ≤ 8388607 then n else (Config.nRange n).toInt

/-- R128: slot c passes its checks: its sums give K_S, and the words written give K_N. -/
def slotGood (run : Run) (n k cols c : Nat) (errs : List PathError) : Bool :=
  residue ((List.range cols).foldl (fun a r => a + slotSum run n c r errs) 0) == sumCheck run n cols c
  && residue ((List.range cols).foldl (fun a r => a + fitN (decodeN k (slotSum run n c r errs))) 0) == rowCheck run n k cols c errs

/-- The node of slot c and column r (R57, R80, R42). -/
def slotNode (s : State) (run : Run) (n k t c r : Nat) (errs : List PathError) : Node :=
  { n := fitN (decodeN k (slotSum run n c r errs)), sat := (negSteps n c).any (fun j => (compAt run j r).sat)
    fen := nodeFenced s (reg s) (actProg s) run.pass t r }

/-- A list of length n whose element i is l's, or f's value where `upd` names it. -/
def writeNodes (n : Nat) (l : List Node) (f : Nat → Option Node) : List Node :=
  (List.range n).map (fun i => (f i).getD (l.getD i {}))

/-- R371: rows whose sum the zone unit finds wrong. -/
def zoneErrors (zerr : List Int) : Nat := (zerr.filter (fun e => residue e != 0)).length

/-- The complete run ends: the next group may start at its end, which is the end of the last pass that ran (R83, R84, R88). -/
def runEnded (s : State) (run : Run) : State :=
  let s1 := putRun s run
  { s1 with car := { s1.car with run := none, time := run.now.start, lastEnd := run.now.start
                                 shown := some { pass := run.pass, group := run.group, step := run.steps, ended := true } } }

/-- The group's values are in: R95, R107, R371, then the zones (R178). -/
def groupIn (s : State) (run : Run) (zerr : List Int) : State :=
  let p := run.pass
  let s1 := setPass s p (fun x => { x with
      noisy := if 0 < run.noisy then putBit x.noisy run.group true else x.noisy
      zstale := if 0 < zoneErrors zerr then putBit x.zstale run.group true else x.zstale })
  endGroup { s1 with car := { s1.car with chkcnt := satAdd s1.car.chkcnt (zoneErrors zerr) } } p run.group

/-- R80, R128: a complete group decoded. -/
def decodeGroup (s : State) (run : Run) (errs : List PathError) (zerr : List Int) : State :=
  let r := reg s
  let b := actProg s
  let p := run.pass
  let k := codeLog r b p - 1
  let n := codeSize r b p
  let cols := colCount r b p
  let rows := rowsOfGroup r b p run.group
  let failed := (rows.filter (fun t => !(slotGood run n k cols (slotOfRow r b p t) errs))).length
  if 0 < failed then failGroup s p run.group failed
  else
    (let f := fun i =>
       let t := i / max cols 1
       if rows.contains t then some (slotNode s run n k t (slotOfRow r b p t) (i % max cols 1) errs) else none
     let s1 := setPass s p (fun x => { x with
       nodes := writeNodes (nodeCount r b p) x.nodes f
       checks := (List.range (rowCount r b p)).map (fun t =>
         if rows.contains t then some (rowCheck run n k cols (slotOfRow r b p t) errs) else x.checks.getD t none) })
     groupIn s1 run zerr)

/-- The run that the row names is complete, before D (R86). -/
def completeRun (s : State) (p g : Nat) : Option Run :=
  match runForward s with
  | none => none
  | some run => if run.pass = p ∧ run.group = g ∧ runInTime s run = true then some run else none

/-- GROUP_DECODE (R80, R57, R128, R130, R371, R178): all steps of a code group have completed. -/
def execGroupDecode (p : Fin 16) (g : Nat) (errs : List PathError) (zerr : List Int) (s : State) : Res :=
  .next (unheld s (
    if !(isMutual (reg s) (actProg s) p) then s
    else match completeRun s p g with
      | none => s
      | some run => decodeGroup (runEnded s run) run errs zerr))

/-- SELF_STEP_DONE (R81, R127, R371, R134, R178): N is the composite M, and the step check is the row check. -/
def execSelfStepDone (p : Fin 16) (zerr : Int) (s : State) : Res :=
  .next (unheld s (
    let r := reg s
    let b := actProg s
    if !(isSelf r b p) then s
    else match completeRun s p 0 with
      | none => s
      | some run =>
        let cols := colCount r b p
        let f := fun i => some { n := (compAt run 1 i).m, sat := (compAt run 1 i).sat, fen := nodeFenced s r b p 0 i : Node }
        let s1 := setPass (runEnded s run) p (fun x => { x with nodes := writeNodes cols x.nodes f, checks := [some (stepCheck run cols 1)] })
        groupIn (gestStep s1 p run.noisy) run [zerr]))

/-! ### LISTEN (R97) -/

/-- LISTEN_END (R82, R97): the largest power of the listened amplifiers per frequency updates the smoothed levels. `charges` are those that
arrived in zeptocoulombs, per RX column and 20 ns of the interval. What a converter or an amplifier has sampled that was fenced since is not
used: no level is updated (R99, R156). -/
def execListenEnd (p : Fin 16) (charges : List (List Int)) (s : State) : Res :=
  .next (unheld s (
    if !(isListen (reg s) (actProg s) p) then s
    else match completeRun s p 0 with
      | none => s
      | some run =>
        let s1 := runEnded s run
        if listenBlocked s p then listenSkip s1 p
        else endGroup { s1 with car := { s1.car with
          listened := true
          noise := (List.range 8).map (fun k => some (smooth (s.car.noise.getD k none) (listenLevel s run charges k))) } } p 0))

/-! ### SYN sources (R89, R94) -/

/-- R89: the source becomes invalid. -/
def synInvalid (s : State) (k : Nat) : State :=
  let was := (getSyn s k).valid
  let s1 := setSyn s k (fun x => { x with valid := false, count := 0 })
  if was then logEv s1 0x0D k 0 else s1

/-- R89: the clocks since the source's last active edge. -/
def synSince (s : State) (k : Nat) : Nat := ((s.beat.clk : Int) - (getSyn s k).last).toNat

/-- R94: the present edge comes earlier than predicted, and leaves the source valid. -/
def synEarly (old new : State) (k : Nat) : Bool := decide (synSince old k < (getSyn old k).period) && (getSyn new k).valid

/-- R94: of the run brought to the present time, an edge slot now in progress that lies inside the source's window as it was, and whose
rest lies outside the window as it is after the present edge, which is an early one. -/
def slotCut (old new : State) (run : Run) (k : Nat) : Bool :=
  let len := slotLen old run.pass
  match run.now.times.getLast? with
  | none => false
  | some t => synActive old run.pass k && synEarly old new k && !run.now.forced && decide (t ≤ old.beat.clk) && decide (old.beat.clk < t + len)
      && !(slotOk new k old.beat.clk (t + len - old.beat.clk))

/-- R94: the present step of the run is NOISY. -/
def synNoisy (old new : State) (k : Nat) : State :=
  match new.car.run with
  | none => new
  | some run => if slotCut old new run k then { new with car := { new.car with run := some { run with noisyStep := true } } } else new

/-- R90, R91: the windows have changed at the present time: the edges still to come are placed from it. -/
def synPlaced (s : State) : State :=
  { s with car := { s.car with run := s.car.run.map (fun run => { run with now := { run.now with after := s.beat.clk } }) } }

/-- R89: an interval has been measured. A valid source whose interval is longer than 2 P has been without an edge for that long. -/
def synInterval (s : State) (k : Nat) : State :=
  let n := synSince s k
  let at_ : Int := s.beat.clk
  let s1 := if decide (n < 200) || decide (16777215 < n) || ((getSyn s k).valid && decide (2 * (getSyn s k).period < n)) then synInvalid s k else s
  if n < 200 ∨ 16777215 < n then setSyn s1 k (fun x => { x with period := n % 16777216, last := at_ })
  else setSyn s1 k (fun x => { x with period := n, last := at_, count := min 3 (x.count + 1), valid := x.valid || decide (3 ≤ x.count + 1) })

/-- R24: the sources are timed: SENSE runs, and not in the hold-over beats. -/
def synTimed (s : State) : Bool := senseRuns s && !(scanEnded s)

/-- R89: an active edge. The first one since the source was enabled, or since SENSE started, begins an interval; each later one ends one. -/
def synTake (s : State) (k : Nat) : State :=
  if (getSyn s k).seen then synInterval s k else setSyn s k (fun x => { x with seen := true, last := s.beat.clk })

/-- SYN_EDGE (R89, R90, R94): SYNk goes from one level to the other. -/
def execSynEdge (k : Fin 4) (before after : Bool) (s : State) : Res :=
  .next (unheld s (
    if !(synTimed s) || !(rbit (reg s) (0x510 + k) 0) || before == after || rbit (reg s) (0x510 + k) 1 != before then s
    else
      (let s1 := runPresent s
       synPlaced (synNoisy s1 (synTake s1 k) k))))

/-- SYN_TIMEOUT (R89): no active edge for 2 P. -/
def execSynTimeout (k : Fin 4) (s : State) : Res :=
  .next (unheld s (if synTimed s && (getSyn s k).valid && decide (2 * (getSyn s k).period < synSince s k) then synPlaced (synInvalid (runPresent s) k) else s))

/-- R101: SYNPERHI is latched for the read that follows. A read of SYNPERHI with no such latch before it, or a second one,
answers the latch as it stands (DESIGN CHOICE, log 110). -/
def synLatch (s : State) (k : Nat) : State :=
  let x := getSyn s k
  setSyn s k (fun x => { x with hiLatch := w16 (x.period / 65536 % 256 + 32768 * b2n x.valid) }) |> fun s => setHd s (w16 x.period)

/-- FREQUENCY_HOP (R98): at a frame boundary after a LISTEN pass, the count is reached and the dwell has passed. -/
def execFrequencyHop (p : Fin 16) (s : State) : Res :=
  .next (unheld s (if atBoundary s && s.car.heard && decide (2 ≤ (fqSet s p).length) then hopTry s p else s))

end Sys2Proof.Machine
end

