-- ==== Sys2Proof/Machine/Pipeline.lean ====
section
/-! DEFINITION. The frame pipeline (R102 to R130): rows, baselines, deltas, water, regions, key groups, the pass header. -/
namespace Sys2Proof.Machine

/-! ### Granary words of a pass -/

def passBase (s : State) (p : Nat) : Nat := granBase + gbase (reg s) (actProg s) p
def rawWord (s : State) (p i : Nat) : W32 := rd32 s (passBase s p + rawOff i)
def baseWord (s : State) (p i : Nat) : Int := (rd32 s (passBase s p + baseOff (reg s) (actProg s) p i)).toInt
def deltaWord (s : State) (p img i : Nat) : W16 := rd16 s (passBase s p + deltaOff (reg s) (actProg s) p img i)
/-- R116: the delta in a delta word. -/
def deltaOf (w : W16) : Int := signed w.toNat 12
def rawNode (w : W32) : Node := ⟨signed w.toNat 24, bit w 24, bit w 25⟩
/-- R108: the raw word. -/
def rawOf (n : Node) : W32 := BitVec.ofNat 32 (wrapN n.n 24 + 2 ^ 24 * b2n n.sat + 2 ^ 25 * b2n n.fen)

/-- R115, R116: the delta word of a node against the integer part b. -/
def deltaForm (r : Reader) (b p : Nat) (n : Node) (bl : Int) : W16 :=
  let d := shifted r b p (passSign r b p * (n.n - bl))
  let lim := limit (-2048) 2047 d
  let v := if n.fen then 0 else lim
  w16 (wrapN v 12 + 4096 * b2n (n.sat || lim != d) + 16384 * b2n n.fen)

/-- R209: a pipeline read of bytes lo to lo + len - 1 of Granary: single-bit errors are corrected and counted; the banks of
uncorrectable words are fenced (R109). -/
def granRead (s : State) (off len : Nat) : State :=
  let a := granBase + off
  let hit := fun (w : Nat) => decide (a < 4 * w + 4) && decide (4 * w < a + len)
  let n := (s.mem.soft.filter hit).length
  let s1 := { s with mem := { s.mem with soft := s.mem.soft.filter (fun w => !(hit w)) }, flt := { s.flt with errcnt0 := satAdd s.flt.errcnt0 n } }
  (s.mem.bad.filter hit).foldl (fun s w => bankFence s ((4 * w - granBase) / 0x10000)) s1

/-- R209: the bytes hold an uncorrectable word. -/
def granBad (s : State) (off len : Nat) : Bool :=
  let a := granBase + off
  s.mem.bad.any (fun w => decide (a < 4 * w + 4) && decide (4 * w < a + len))

/-! ### Rows (stages 2 to 4) -/

/-- R109: a pipeline reads spans of its area; where a word is uncorrectable the bank is fenced, and with it the pipeline, and nothing more is done. -/
def readThen (s : State) (spans : List (Nat × Nat)) (f : State → State) : State :=
  let s1 := spans.foldl (fun s x => granRead s x.1 x.2) s
  if spans.any (fun x => granBad s x.1 x.2) then s1 else f s1

/-- R104: this frame of the pass is skipped: counted once, PIPEOVR set in the header; PEAK zones fall back (R183). -/
def overrun (s : State) (p : Nat) : State :=
  if (getPass s p).ovr then s
  else
    (let s1 := setPass s p (fun x => { x with ovr := true, lastOvr := true })
     let s2 := { s1 with car := { s1.car with pipeovr := satInc s1.car.pipeovr } }
     let off := gbase (reg s2) (actProg s2) p + 4
     afterGroup (readThen s2 [(off, 4)] (fun s => wrGran s off (le32 (rd32 s (granBase + off) ||| (1 <<< 24))))) p)

/-- The nodes of row t as decoded. -/
def rowNodes (s : State) (p t : Nat) : List Node :=
  let c := colCount (reg s) (actProg s) p
  (List.range c).map (fun j => nodeOf (getPass s p) (t * c + j))

/-- The integer baselines against which row t's deltas are formed; in the first frame after a reseat each is N (R110). -/
def rowBases (s : State) (p t : Nat) : List Int :=
  let c := colCount (reg s) (actProg s) p
  (rowNodes s p t).mapIdx (fun j n => if (getPass s p).seat = 32 then n.n else baseWord s p (t * c + j) >>> 8)

/-- R129: the row's values agree with K_D. -/
def rowAgrees (s : State) (p t k : Nat) (err : Int) : Bool :=
  let sg := passSign (reg s) (actProg s) p
  let ns := rowNodes s p t
  let bs := rowBases s p t
  let kb := residue (bs.foldl (fun a b => a + b) 0)
  let sum := (ns.zip bs).foldl (fun a x => a + sg * (x.1.n - x.2)) err
  residue sum == residue (sg * ((k : Int) - kb))

/-- R130: the rows of group g, whose deltas were written to image img, go back to what the area held before. -/
def restoreGroup (s : State) (p g img : Nat) : State :=
  let r := reg s
  let b := actProg s
  let c := colCount r b p
  let base := gbase r b p
  let rows := rowsOfGroup r b p g
  let s1 := ((getPass s p).saved.filter (fun x => rows.contains x.row)).foldl (fun s x =>
    wrGran (wrGran (wrGran (wrGran s (base + rawOff (x.row * c)) x.raw) (base + baseOff r b p (x.row * c)) x.base)
      (base + deltaOff r b p img (x.row * c)) x.dlt) (base + checkOff r b p x.row) x.chk) s
  setPass s1 p (fun x => { x with saved := x.saved.filter (fun y => !(rows.contains y.row)), rows := x.rows.filter (fun t => !(rows.contains t)) })

/-- R130: a row's check failed in the pipeline. -/
def rowFail (s : State) (p t : Nat) : State :=
  let g := groupOfRow (reg s) (actProg s) p t
  failGroup (restoreGroup s p g (imgOf s.beat.frameSeq)) p g 1

def bytesAt (s : State) (off n : Nat) : List Byte := (List.range n).map (fun i => rd8 s (granBase + off + i))

/-- R110: in the first frame after a reseat each baseline of the row is N x 256 before its delta is formed. -/
def rowSeat (s : State) (p t : Nat) : State :=
  let r := reg s
  let b := actProg s
  if (getPass s p).seat = 32 then
    wrGran s (gbase r b p + baseOff r b p (t * colCount r b p)) ((rowNodes s p t).flatMap (fun n => le32 (BitVec.ofInt 32 (n.n * 256))))
  else s

/-- R103, R108, R116, R129: a row that passes its check is written: raw words, delta words, K_N and the row CRC. -/
def rowWrite (s : State) (p t k : Nat) : State :=
  let r := reg s
  let b := actProg s
  let c := colCount r b p
  let base := gbase r b p
  let img := imgOf s.beat.frameSeq
  let ns := rowNodes s p t
  let ws := (ns.zip (rowBases s p t)).map (fun x => deltaForm r b p x.1 x.2)
  let old : SavedRow := ⟨t, bytesAt s (base + rawOff (t * c)) (4 * c), bytesAt s (base + baseOff r b p (t * c)) (4 * c), bytesAt s (base + deltaOff r b p img (t * c)) (2 * c), bytesAt s (base + checkOff r b p t) 12⟩
  let s1 := wrGran (rowSeat s p t) (base + rawOff (t * c)) (ns.flatMap (fun n => le32 (rawOf n)))
  let s2 := wrDeltaRow s1 p img t ws
  let s3 := wrGran s2 (base + checkOff r b p t) (le16 (w16 k))
  setPass s3 p (fun x => { x with
    rows := t :: x.rows, saved := old :: x.saved, lastOvr := false
    pipe := match x.pipe with
      | none => some { beat := s.beat.no, seq := s.beat.frameSeq }
      | some f => some f })

/-- The row has been decoded in this frame and has not entered the pipeline; no row of a skipped frame enters (R104). -/
def rowWaits (s : State) (p t : Nat) : Option Nat :=
  let x := getPass s p
  let g := groupOfRow (reg s) (actProg s) p t
  if x.ovr || bit x.stale g || bit x.skip g || !(bit x.ended g) || x.rows.contains t then none else x.checks.getD t none

/-- A decoded row enters stages 2 to 4. -/
def pipeRow (s : State) (p t : Nat) (err : Int) : State :=
  if !(pipeWorks s p) then s
  else match rowWaits s p t with
    | none => s
    | some k =>
      let r := reg s
      let b := actProg s
      let off := gbase r b p + baseOff r b p (t * colCount r b p)
      let len := 4 * colCount r b p
      if (match (getPass s p).pipe with
          | some f => f.late
          | none => false) then overrun s p
      else if granBad s off len then granRead s off len
      else
        (let s1 := granRead s off len
         if rowAgrees s1 p t k err then rowWrite s1 p t k else rowFail s1 p t)

/-- PIPELINE_ROW (R103, R104, R108, R115, R116, R129, R130): `err` is an error on the path of the row's differences. -/
def execPipelineRow (p : Fin 16) (t : Nat) (err : Int) (s : State) : Res := .next (logOrder (pipeRow s p t err) s.flt.logcount)

/-- Every decoded row of the pass that has not entered yet enters. -/
def pipeRows (s : State) (p : Nat) : State :=
  (List.range (rowCount (reg s) (actProg s) p)).foldl (fun s t => pipeRow s p t 0) s

/-! ### Baselines (R110 to R113) -/

def frzTh (r : Reader) (b p : Nat) : Int := 8 * rf r (pipeKey b p 2) 8 8

/-- Some node of the pass has a delta at the freeze threshold. -/
def anyHot (s : State) (p img : Nat) : Bool :=
  (List.range (nodeCount (reg s) (actProg s) p)).any (fun i => decide (frzTh (reg s) (actProg s) p ≤ deltaOf (deltaWord s p img i)))

/-- R110: the frame is one of the 32 after a reseat. -/
def seating (x : Pass) : Bool := decide (0 < x.seat) && decide (x.seat ≤ 32)

/-- R112: the delta condition freezes node i. -/
def deltaFreezes (s : State) (p img i : Nat) (hot : Bool) : Bool :=
  let r := reg s
  let b := actProg s
  if seating (getPass s p) then false
  else if rbit r (pipeKey b p 1) 5 then hot else decide (frzTh r b p ≤ deltaOf (deltaWord s p img i))

/-- R111: the tracking shift in force. -/
def trackRate (s : State) (p : Nat) : Nat :=
  let x := getPass s p
  let fast := seating x || (match x.retrack with
    | some n => decide (0 < n)
    | none => false)
  max 1 (rf (reg s) (pipeKey (actProg s) p 2) (if fast then 4 else 0) 4)

def wrBase (s : State) (p i : Nat) (w : Int) : State :=
  wrGran s (gbase (reg s) (actProg s) p + baseOff (reg s) (actProg s) p i) (le32 (BitVec.ofInt 32 w))

def listSet (l : List Nat) (i v : Nat) : List Nat :=
  if i < l.length then upd l i (fun _ => v) else l ++ List.replicate (i - l.length) 0 ++ [v]

/-- R113: the frames below -NEGTH * 8 that reset a node; none where it is off. -/
def negLimit (r : Reader) (b p : Nat) : Option Nat := if rf r (pipeKey b p 3) 0 8 = 0 then none else some (max 1 (rf r (pipeKey b p 3) 8 8))
def frzLimit (r : Reader) (b p : Nat) : Option Nat := if rf r (pipeKey b p 4) 0 16 = 0 then none else some (rf r (pipeKey b p 4) 0 16)

/-- R113: node i has stayed below -NEGTH * 8 long enough: its baseline is reset. -/
def negTry (s : State) (p i : Nat) : State :=
  match negLimit (reg s) (actProg s) p with
  | none => s
  | some n =>
    if n ≤ (getPass s p).negative.getD i 0 then
      (let s1 := wrBase s p i ((rawNode (rawWord s p i)).n * 256)
       let s2 := setPass s1 p (fun x => { x with negative := listSet x.negative i 0 })
       { s2 with car := { s2.car with negcnt := satInc s2.car.negcnt } })
    else s

/-- R113: the nodes frozen by their delta for FRZMAX frames. -/
def frzOut (s : State) (p : Nat) : List Nat :=
  match frzLimit (reg s) (actProg s) p with
  | none => []
  | some n => (List.range (getPass s p).frozen.length).filter (fun i => decide (n ≤ (getPass s p).frozen.getD i 0))

/-- R113: their baselines are reset, with one entry. -/
def frzRelease (s : State) (p : Nat) : State :=
  let is := frzOut s p
  if is.isEmpty then s
  else logEv (is.foldl (fun s i =>
    setPass (wrBase s p i ((rawNode (rawWord s p i)).n * 256)) p (fun x => { x with frozen := listSet x.frozen i 0 })) s) 0x09 p 0

/-- R110 to R113: one node's baseline at the end of a frame in which its row was processed. -/
def baseNode (s : State) (p img i : Nat) (noisy : Bool) (hot : Bool) : State :=
  let r := reg s
  let b := actProg s
  let x := getPass s p
  let n := rawNode (rawWord s p i)
  let d := deltaOf (deltaWord s p img i)
  let w := baseWord s p i
  let byDelta := deltaFreezes s p img i hot
  let s2 := if x.seat == 32 || n.fen || n.sat || noisy || byDelta then s else wrBase s p i (w + ((n.n * 256 - w) >>> trackRate s p))
  let neg := !n.fen && (negLimit r b p).isSome && decide (d ≤ -(8 * (rf r (pipeKey b p 3) 0 8 : Int)))
  let s3 := setPass s2 p (fun x => { x with
    negative := listSet x.negative i (if neg then x.negative.getD i 0 + 1 else 0)
    frozen := listSet x.frozen i (if byDelta && !n.fen then x.frozen.getD i 0 + 1 else 0) })
  negTry s3 p i

/-! ### Water (R117) -/

/-- R117: the delta of a pin in the reference pass, from the image that applies. -/
def refDelta (s : State) (q img pin : Nat) : Option Int :=
  match (rxPins (reg s) (actProg s) q).findIdx? (fun e => e == pin) with
  | none => none
  | some i => some (deltaOf (deltaWord s q img i))

/-- R117: the smaller of the two self responses. -/
def selfResponse (s : State) (p q img t c : Nat) : Option Int :=
  let st := refDelta s q img ((txPins (reg s) (actProg s) p).getD t 0)
  let sr := refDelta s q img ((rxPins (reg s) (actProg s) p).getD c 0)
  match st, sr with
  | some a, some b => some (min a b)
  | some a, none => some a
  | none, x => x

/-- R117: the reference pass that PWREF names. -/
def refPass (s : State) (p : Nat) : Nat := rf (reg s) (pipeKey (actProg s) p 7) 0 4

/-- R117: in the frame in progress the reference pass is STALE, or in the frame before where it comes later in the program. -/
def refStaleNow (s : State) (p : Nat) : Bool :=
  let x := getPass s (refPass s p)
  if refPass s p < p then x.stale != 0 else x.prevStale != 0

/-- R117: the reference pass q serves the classifier for a frame. -/
def refUsable (s : State) (q : Nat) (f : PipeFrame) : Bool := (getPass s q).bvalid && !(getPass s q).pipeFen && !f.refStale

/-- R372: rows whose CRC in the area does not match. -/
def crcBad (s : State) (p img : Nat) : List Nat :=
  let r := reg s
  let b := actProg s
  let cols := colCount r b p
  (List.range (rowCount r b p)).filter (fun t =>
    rd32 s (passBase s p + checkOff r b p t + 4 + 4 * img) != rowCrc ((List.range cols).map (fun c => deltaWord s p img (t * cols + c))))

/-- R117: node (t, c) is WET. -/
def isWet (s : State) (p q img qimg t c : Nat) : Bool :=
  let r := reg s
  let b := actProg s
  let d := deltaOf (deltaWord s p img (t * colCount r b p + c))
  let wmin : Int := 8 * rf r (pipeKey b p 6) 0 8
  let ratio : Int := rf r (pipeKey b p 6) 8 8
  match selfResponse s p q qimg t c with
  | none => false
  | some sv => decide (d ≤ -wmin) || (decide (wmin ≤ d) && decide (16 * max sv 0 < ratio * d))

/-- R117: stage 5 on a MUTUAL pass with WEN = 1: WET flags written with the row CRCs; answers WETSKIP, which is 0 in a pass that stage 5 is not
asked to classify (WEN = 0, or not MUTUAL; DESIGN CHOICE, log 124). Where the reference pass's frame was skipped (R104), the image that it would
have written stands in, with an older frame's deltas (DESIGN CHOICE, log 140). A row that its CRC finds wrong gets no new one (R370). -/
def waterStage (s : State) (p img : Nat) (f : PipeFrame) : State × Bool :=
  let r := reg s
  let b := actProg s
  let q := refPass s p
  if !(isMutual r b p && rbit r (pipeKey b p 1) 13) then (s, false)
  else if !(refUsable s q f) then (s, true)
  else
    (let cols := colCount r b p
     let qimg := if q < p then img else 1 - img
     let rows := List.range (rowCount r b p)
     let none_ := rows.all (fun t => (List.range cols).all (fun c => (selfResponse s p q qimg t c).isNone))
     let bad := crcBad s p img
     let s1 := (rows.filter (fun t => !(bad.contains t))).foldl (fun s' t =>
       wrDeltaRow s' p img t ((List.range cols).map (fun c =>
         putBit (deltaWord s p img (t * cols + c)) 13 (isWet s p q img qimg t c)))) s
     (s1, none_))

/-! ### Regions (R118 to R122) -/

def nodeAdjacent (cols i j : Nat) : Bool :=
  let t := i / cols
  let u := j / cols
  let a := i % cols
  let c := j % cols
  decide (t ≤ u + 1) && decide (u ≤ t + 1) && decide (a ≤ c + 1) && decide (c ≤ a + 1)

/-- R119: adjacent admitted nodes belong to the same region. -/
def growRegions (cols : Nat) (rs : List (List Nat)) (i : Nat) : List (List Nat) :=
  let near := rs.filter (fun g => g.any (nodeAdjacent cols i))
  let away := rs.filter (fun g => !(g.any (nodeAdjacent cols i)))
  (near.flatten ++ [i]) :: away

/-- R119, R124: node i is admitted in a frame with the candidate set `cand`. What a bad row holds is not used (R370, R372). -/
def admitted (s : State) (p img : Nat) (cand : Option (List Nat × List Nat)) (bad : List Nat) (i : Nat) : Bool :=
  let r := reg s
  let b := actProg s
  let cols := colCount r b p
  let w := deltaWord s p img i
  !(bad.contains (i / cols)) && decide ((rf r (pipeKey b p 5) 0 12 : Int) ≤ deltaOf w) && !(bit w 14) && !(rbit r (pipeKey b p 1) 14 && bit w 13)
  && (match cand with
      | none => true
      | some c => nearAny c.1 (i / cols) && nearAny c.2 (i % cols))

/-- A region's peak node: the highest delta, ties to the first in scan order. -/
def peakNode (s : State) (p img : Nat) (g : List Nat) : Nat :=
  let d := fun i => deltaOf (deltaWord s p img i)
  g.foldl (fun a i => if d a < d i ∨ (d i = d a ∧ i < a) then i else a) (g.headD 0)

/-- R121: descending order of peak, ties to the earlier peak. -/
def insertRegion (key : List Nat → Int × Nat) (g : List Nat) : List (List Nat) → List (List Nat)
  | [] => [g]
  | x :: t =>
    let a := key g
    let b := key x
    if b.1 < a.1 ∨ (a.1 = b.1 ∧ a.2 < b.2) then g :: x :: t else x :: insertRegion key g t

/-- R119, R121: all regions of the pass, in table order. -/
def regionsOf (s : State) (p img : Nat) (cand : Option (List Nat × List Nat)) (bad : List Nat) : List (List Nat) :=
  let cols := colCount (reg s) (actProg s) p
  let ns := (List.range (nodeCount (reg s) (actProg s) p)).filter (admitted s p img cand bad)
  let rs := ns.foldl (growRegions cols) []
  let key := fun g => (deltaOf (deltaWord s p img (peakNode s p img g)), peakNode s p img g)
  rs.foldr (insertRegion key) []

/-- R118, R120, R122: the record of a region. -/
def regionRecord (s : State) (p img : Nat) (f : PipeFrame) (bad : List Nat) (g : List Nat) : List W32 :=
  let r := reg s
  let b := actProg s
  let cols := colCount r b p
  let rows := rowCount r b p
  let w := fun i => deltaWord s p img i
  let d := fun i => deltaOf (w i)
  let rth : Int := rf r (pipeKey b p 5) 0 12
  let pk := peakNode s p img g
  let area := g.length
  let sum := g.foldl (fun a i => a + d i) 0
  let wsum := g.foldl (fun a i => a + (d i - rth + 1)) 0
  let x := if wsum = 0 then 0 else roundDivI (256 * g.foldl (fun a i => a + (d i - rth + 1) * (i % cols : Nat)) 0) wsum
  let y := if wsum = 0 then 0 else roundDivI (256 * g.foldl (fun a i => a + (d i - rth + 1) * (i / cols : Nat)) 0) wsum
  let fenadj := (List.range (nodeCount r b p)).any (fun j => bit (w j) 14 && !(bad.contains (j / cols)) && g.any (nodeAdjacent cols j))
  let edge := g.any (fun i => i / cols == 0 || i / cols + 1 == rows || i % cols == 0 || i % cols + 1 == cols)
  let veg := decide (rf r (pipeKey b p 8) 0 8 ≤ area) && decide (16 * d pk * area ≤ (rf r (pipeKey b p 8) 8 8 : Int) * sum)
  let wet := min 255 (g.filter (fun i => bit (w i) 13)).length
  let inGroup := fun (m : BitVec 18) => g.any (fun i => bit m (groupOfRow r b p (i / cols)))
  [ BitVec.ofNat 32 (pk / cols % 256 + 256 * (pk % cols % 256) + 65536 * wrapN (d pk) 12 + 2 ^ 28 * b2n (g.any (fun i => bit (w i) 12))
      + 2 ^ 29 * b2n fenadj + 2 ^ 30 * b2n edge + 2 ^ 31 * b2n veg),
    BitVec.ofNat 32 (area % 65536 + 65536 * wet + 2 ^ 24 * b2n (inGroup f.stale) + 2 ^ 25 * b2n (inGroup f.noisy)),
    if sum < 16777216 then BitVec.ofNat 32 sum.toNat else (Config.regionSumRange sum.toNat).setWidth 32,
    BitVec.ofNat 32 (wrapN x 16 + 65536 * wrapN y 16) ]

/-- R119 to R122: stage 6, over the rows that are not bad; answers the number of regions kept and REGOVF. -/
def regionStage (s : State) (p img : Nat) (f : PipeFrame) (bad : List Nat) : State × Nat × Bool :=
  let r := reg s
  let b := actProg s
  if !(isMutual r b p && rbit r (pipeKey b p 1) 7) then (s, 0, false)
  else
    (let all := regionsOf s p img f.cand bad
     let kept := all.take (rf r (pipeKey b p 1) 8 5 + 1)
     let recs := kept.flatMap (regionRecord s p img f bad)
     (wrGran s (gbase r b p + regionOff r b p) (recs.flatMap le32), kept.length, decide (kept.length < all.length)))

/-! ### Keys (R126) -/

/-- The slot of a key's group: 0 to 7 for a named group, 8 + r for a key in a group of its own. -/
def keySlot (s : State) (p i : Nat) : Nat :=
  let pin := (rxPins (reg s) (actProg s) p).getD i 0
  let g := rf (reg s) (0x1200 + pin / 4) (4 * (pin % 4)) 4
  if g < 8 then g else 8 + i

def keyHeld (s : State) (p : Nat) : Nat := rf (reg s) (pipeKey (actProg s) p 11) 6 4 + 1

/-- The key with the highest delta among some, ties to the lower index. -/
def bestKey (d : Nat → Int) : List Nat → Option Nat
  | [] => none
  | i :: t => some (t.foldl (fun a j => if d a < d j then j else a) i)

/-- The keys of a group that are not FEN. -/
def keysOf (s : State) (p img slot : Nat) : List Nat :=
  (List.range (colCount (reg s) (actProg s) p)).filter (fun i => keySlot s p i == slot && !(bit (deltaWord s p img i) 14))

/-- R126: the current key is released below KOFF, or once it is FEN. -/
def keyRelease (s : State) (p img : Nat) (k : KeyGroup) : KeyGroup :=
  match k.cur with
  | none => k
  | some c =>
    if deltaOf (deltaWord s p img c) < (rf (reg s) (pipeKey (actProg s) p 10) 0 12 : Int) ∨ bit (deltaWord s p img c) 14 then { k with cur := none, quals := [] }
    else k

/-- R126: the consecutive frames of the highest key, and of each challenger that qualifies against the current key. -/
def keyFrame (s : State) (p img slot : Nat) (k : KeyGroup) : KeyGroup :=
  let r := reg s
  let b := actProg s
  let d := fun i => deltaOf (deltaWord s p img i)
  let mine := keysOf s p img slot
  let top := bestKey d (mine.filter (fun i => decide ((rf r (pipeKey b p 9) 0 12 : Int) ≤ d i)))
  let was := fun (i : Nat) => ((k.quals.find? (fun e => e.1 == i)).map (fun e => e.2)).getD 0
  { k with
    top := top
    count := if top = none then 0 else if k.top = top then k.count + 1 else 1
    quals := match k.cur with
      | none => []
      | some c => (mine.filter (fun i => i != c && decide ((64 + (rf r (pipeKey b p 11) 0 6 : Int)) * d c ≤ 64 * d i))).map (fun i => (i, was i + 1)) }

/-- R126: the key that becomes current: without a current one, the highest once it has been highest for KDEB + 1 frames; else the highest
qualifying challenger once it has qualified for as many. -/
def keyPick (s : State) (p img : Nat) (k : KeyGroup) : Option Nat :=
  match k.cur with
  | none => if keyHeld s p ≤ k.count then k.top else none
  | some _ =>
    match bestKey (fun i => deltaOf (deltaWord s p img i)) (k.quals.map (fun e => e.1)) with
    | none => none
    | some i => if k.quals.any (fun e => e.1 == i && decide (keyHeld s p ≤ e.2)) then some i else none

/-- The key that has held becomes current. -/
def keyTake (s : State) (p img : Nat) (k : KeyGroup) : KeyGroup :=
  match keyPick s p img k with
  | none => k
  | some i => { k with cur := some i, quals := [] }

/-- R126: one group at the end of a KEY pass. -/
def keyEval (s : State) (p img slot : Nat) (k : KeyGroup) : KeyGroup := keyTake s p img (keyFrame s p img slot (keyRelease s p img k))

def keySlots (s : State) (p : Nat) : Nat := 8 + colCount (reg s) (actProg s) p

/-- R126: stage 7. -/
def keyStage (s : State) (p img : Nat) (f : PipeFrame) : State :=
  if passType (reg s) (actProg s) p = 4 ∧ f.stale = 0 then
    setPass s p (fun x => { x with keys := (List.range (keySlots s p)).map (fun i => keyEval s p img i (x.keys.getD i {})) })
  else s

/-- KEY_SELECT (R126): a key that has held for KDEB + 1 frames becomes current. -/
def execKeySelect (p : Fin 16) (grp : Nat) (s : State) : Res :=
  .next (setPass s p (fun x => { x with keys := upd x.keys grp (keyTake s p (b2n x.cur)) }))

/-! ### The end of a pass (R103, R107) -/

/-- The rows whose group is marked. -/
def markedRows (s : State) (p : Nat) (m : BitVec 18) : List Nat :=
  (List.range (rowCount (reg s) (actProg s) p)).filter (fun t => bit m (groupOfRow (reg s) (actProg s) p t))

/-- R85, R130: a row keeps its deltas, and the CRC that guards them (R129): this frame's image takes both from the image written last, which
after a skipped frame is the same one (R104). -/
def keepRow (s : State) (p img t : Nat) : State :=
  let r := reg s
  let b := actProg s
  let c := colCount r b p
  let base := gbase r b p
  let from_ := b2n (getPass s p).cur
  if from_ = img then s
  else wrGran (wrGran s (base + deltaOff r b p img (t * c)) (bytesAt s (base + deltaOff r b p from_ (t * c)) (2 * c)))
    (base + checkOff r b p t + 4 + 4 * img) (bytesAt s (base + checkOff r b p t + 4 + 4 * from_) 4)

/-- R85, R125, R130: the rows of STALE groups keep their deltas; those of SKIP groups are 0. -/
def keepStale (s : State) (p img : Nat) (f : PipeFrame) : State :=
  let s1 := (markedRows s p f.stale).foldl (fun s t => keepRow s p img t) s
  (markedRows s p (f.skip &&& ~~~f.stale)).foldl (fun s t => wrDeltaRow s p img t (List.replicate (colCount (reg s) (actProg s) p) 0)) s1

/-- Stages 6 and 7 read the delta rows of this pass. -/
def rechecks (s : State) (p : Nat) : Bool :=
  (isMutual (reg s) (actProg s) p && rbit (reg s) (pipeKey (actProg s) p 1) 7) || passType (reg s) (actProg s) p == 4

/-- R107: the sixteen header words; words 6 and 7 are 0 in a pass that is not KEY (DESIGN CHOICE, log 110). -/
def headerWords (s : State) (p img : Nat) (f : PipeFrame) (wetskip regovf : Bool) (nreg : Nat) : List W32 :=
  let x := getPass s p
  let key := fun k => match (x.keys.getD k {}).cur with
    | some i => i % 256
    | none => 255
  let keys := fun lo => if passType (reg s) (actProg s) p = 4 then (List.range 4).foldl (fun a k => a + key (lo + k) * 256 ^ k) 0 else 0
  [ f.beat,
    BitVec.ofNat 32 (f.seq.toNat + 65536 * p + 2 ^ 20 * img + 2 ^ 21 * b2n x.bvalid + 2 ^ 22 * b2n wetskip + 2 ^ 23 * b2n regovf
      + 2 ^ 24 * b2n (f.late && x.lastOvr) + 2 ^ 25 * b2n x.pipeFen),
    BitVec.ofNat 32 f.stale.toNat, BitVec.ofNat 32 f.noisy.toNat, BitVec.ofNat 32 f.skip.toNat,
    BitVec.ofNat 32 (nreg + 256 * min 255 f.failed), BitVec.ofNat 32 (keys 0), BitVec.ofNat 32 (keys 4) ] ++ List.replicate 8 0

/-- R110: the frames of a reseat; BVALID sets after the 32nd. R114: the frames of a retrack. -/
def countFrames (x : Pass) : Pass :=
  { x with
    bvalid := x.bvalid || x.seat == 1
    seat := x.seat - 1
    retrack := x.retrack.map (fun n => n - 1) }

/-- The frame whose data the pipeline finishes now. -/
def finishing (s : State) (p : Nat) : PipeFrame :=
  let x := getPass s p
  let now : PipeFrame := { beat := s.beat.no, seq := s.beat.frameSeq, stale := x.stale, noisy := x.noisy, skip := x.skip, failed := x.failRows
                           zstale := x.zstale, cand := x.cand, refStale := refStaleNow s p }
  match x.pipe with
  | some f => if f.late then f else { now with beat := f.beat, seq := f.seq }
  | none => now

/-- R110, R113: a row that was not processed in the frame: in the first frame after a reseat its baselines too are N, which keeps its last
value; in a SKIP group, whose deltas are 0, the counts of R113 restart; a STALE frame neither advances nor ends the runs that R113 counts
(DESIGN CHOICE, log 123). -/
def baseIdle (s : State) (p t : Nat) (skip : Bool) : State :=
  let cols := colCount (reg s) (actProg s) p
  (List.range cols).foldl (fun s c =>
    let i := t * cols + c
    let s1 := if (getPass s p).seat = 32 then wrBase s p i ((rawNode (rawWord s p i)).n * 256) else s
    if skip then setPass s1 p (fun x => { x with negative := listSet x.negative i 0, frozen := listSet x.frozen i 0 }) else s1) s

/-- R110: the row has been processed in the frame, so that its baselines track. -/
def rowTracks (s : State) (p t : Nat) (f : PipeFrame) : Bool :=
  let g := groupOfRow (reg s) (actProg s) p t
  !(bit f.stale g) && !(bit f.skip g) && (getPass s p).saved.any (fun x => x.row == t)

/-- R109: what tracking the baselines reads of Granary: raw words, baselines and deltas of the rows processed, every delta for a freeze of the whole
pass (R112), and, in the first frame after a reseat, the raw words of every row. -/
def baseReads (s : State) (p img : Nat) (f : PipeFrame) : List (Nat × Nat) :=
  let r := reg s
  let b := actProg s
  let base := gbase r b p
  let cols := colCount r b p
  (List.range (rowCount r b p)).flatMap (fun t =>
    if rowTracks s p t f then
      [(base + rawOff (t * cols), 4 * cols), (base + baseOff r b p (t * cols), 4 * cols), (base + deltaOff r b p img (t * cols), 2 * cols)]
    else if (getPass s p).seat = 32 then [(base + rawOff (t * cols), 4 * cols)]
    else [])
    ++ (if rbit r (pipeKey b p 1) 5 then [(base + deltaOff r b p img 0, 2 * nodeCount r b p)] else [])

/-- Baselines at the end of a frame (R110 to R113); a STALE frame neither advances nor ends the runs of R113 (DESIGN CHOICE, log 123). -/
def baseStage (s : State) (p img : Nat) (f : PipeFrame) : State :=
  let cols := colCount (reg s) (actProg s) p
  let hot := anyHot s p img
  let s1 := (List.range (rowCount (reg s) (actProg s) p)).foldl (fun s t =>
    let g := groupOfRow (reg s) (actProg s) p t
    if !(rowTracks s p t f) then baseIdle s p t (bit f.skip g && !(bit f.stale g))
    else (List.range cols).foldl (fun s c => baseNode s p img (t * cols + c) (bit f.noisy g) hot) s) s
  frzRelease s1 p

/-- R245: the pass-done event. -/
def passEvent (s : State) (p : Nat) : State := { s with cpu := { s.cpu with evtpass := putBit s.cpu.evtpass p true } }

/-- R372: the rows that stages 6 and 7 find wrong, of all that they read: the rows of this frame, and those that a STALE or SKIP group keeps. -/
def recheckBad (s : State) (p img : Nat) : List Nat := if rechecks s p then crcBad s p img else []

/-- R372, R130: n rows of group g are wrong: a group with data of this frame is discarded and STALE; one that was STALE already has failed too. -/
def recheckFail (s : State) (p g n : Nat) : State := if bit (getPass s p).stale g then checkFail s p n else failGroup s p g n

/-- R109: the Granary words that keeping the rows of `m` reads: the delta rows of the image written last, with their CRCs. -/
def keepReads (s : State) (p img : Nat) (m : BitVec 18) : List (Nat × Nat) :=
  let r := reg s
  let b := actProg s
  let base := gbase r b p
  let cols := colCount r b p
  let from_ := b2n (getPass s p).cur
  if from_ = img then []
  else (markedRows s p m).flatMap (fun t => [(base + deltaOff r b p from_ (t * cols), 2 * cols), (base + checkOff r b p t + 4 + 4 * from_, 4)])

/-- R372, R130: the groups of the wrong rows are discarded, and keep what they showed before. An earlier frame that the pipeline still finishes
takes the marks itself. -/
def recheckStage (s : State) (p img : Nat) (f : PipeFrame) (bad : List Nat) : State × PipeFrame :=
  let gs := (bad.map (groupOfRow (reg s) (actProg s) p)).eraseDups
  let s1 := gs.foldl (fun s g => restoreGroup s p g img) s
  if bad.isEmpty then (s, f)
  else if f.late then
    (let s2 := setPass (checkFail s1 p bad.length) p (fun x => { x with failRows := (getPass s1 p).failRows })
     let fresh := gs.filter (fun g => !(bit f.stale g))
     let f2 := { f with stale := gs.foldl (fun m g => putBit m g true) f.stale, failed := f.failed + bad.length }
     let s3 := { s2 with car := { s2.car with stalecnt := satAdd s2.car.stalecnt fresh.length } }
     (readThen s3 (keepReads s3 p img f2.stale) (fun s => keepStale s p img f2), f2))
  else
    (let s2 := gs.foldl (fun s g => recheckFail s p g (bad.filter (fun t => groupOfRow (reg s1) (actProg s1) p t == g)).length) s1
     let f2 := { f with stale := (getPass s2 p).stale, failed := (getPass s2 p).failRows }
     (readThen s2 (keepReads s2 p img f2.stale) (fun s => keepStale s p img f2), f2))

/-- R109: the Granary words that finishing a frame reads: the delta rows kept from the image written last, with their CRCs, the delta image and row checks that
stages 5 to 7 take, and the reference pass's image. -/
def finishReads (s : State) (p img : Nat) (f : PipeFrame) : List (Nat × Nat) :=
  let r := reg s
  let b := actProg s
  let base := gbase r b p
  let q := refPass s p
  let wet := isMutual r b p && rbit r (pipeKey b p 1) 13
  keepReads s p img f.stale ++ (if rechecks s p || wet then [(base + deltaOff r b p img 0, 2 * nodeCount r b p)] else [])
    ++ (if rechecks s p then (List.range (rowCount r b p)).map (fun t => (base + checkOff r b p t + 4 + 4 * img, 4)) else [])
    ++ (if wet && refUsable s q f then [(gbase r b q + deltaOff r b q (if q < p then img else 1 - img) 0, 2 * nodeCount r b q)] else [])

/-- The baselines, stages 5 to 7 and the header of pass p, whose pipeline is not fenced; stages 6 and 7 do not use bad rows. -/
def finishStages (s : State) (p : Nat) (f : PipeFrame) (bad : List Nat) : State :=
  let img := imgOf f.seq
  let s2 := baseStage s p img f
  let (s3, wetskip) := waterStage s2 p img f
  let (s5, nreg, regovf) := regionStage s3 p img f bad
  let s6 := keyStage s5 p img f
  let s7 := wrGran s6 (gbase (reg s6) (actProg s6) p) ((headerWords s6 p img f wetskip regovf nreg).flatMap le32)
  let ran := (f.stale ||| f.skip).toNat + 1 < 2 ^ groupsOf s p
  let s8 := setPass s7 p (fun x => { countFrames x with
    pipe := none, saved := [], cur := img == 1, lastOvr := f.late && x.lastOvr, finished := x.finished || !f.late, image := some f.seq, doneCand := f.cand
    failFrames := if ran && !x.failNow && !f.late then 0 else x.failFrames })
  if f.late then evalLate (passEvent s8 p) p f else evalPass (passEvent s8 p) p true

/-- R372: the rows kept and the recheck, then the rest, unless a failed check has fenced the pipeline (R130, R109). -/
def finishWrite (s : State) (p : Nat) (f0 : PipeFrame) : State :=
  let img := imgOf f0.seq
  let s1 := keepStale s p img f0
  let bad := recheckBad s1 p img
  let (s2, f) := recheckStage s1 p img f0 bad
  let s3 := if (getPass s2 p).pipeFen then s2 else (baseReads s2 p img f).foldl (fun s x => granRead s x.1 x.2) s2
  if (getPass s3 p).pipeFen then s3 else finishStages s3 p f (if bad.isEmpty then [] else recheckBad s3 p img)

/-- R103, R109: the frame of pass p is finished, unless what that reads fences the pass's pipeline. -/
def finishPass (s : State) (p : Nat) : State :=
  let f := finishing s p
  let s1 := (finishReads s p (imgOf f.seq) f).foldl (fun s x => granRead s x.1 x.2) s
  if (getPass s1 p).pipeFen then s1 else finishWrite s1 p f

/-- The pass can finish: an earlier frame is still in the pipeline, or every group of this one has ended and every row has entered. -/
def canFinish (s : State) (p : Nat) : Bool :=
  let x := getPass s p
  coreRuns s && !x.pipeFen && ownsArea (reg s) (actProg s) p &&
  (match x.pipe with
   | some f => f.late || (!x.ovr && passEnded s p && (List.range (rowCount (reg s) (actProg s) p)).all (fun t => (rowWaits s p t).isNone))
   | none => s.pwr.mode == .scan && passRuns s p && passEnded s p && !x.finished && !x.ovr
             && (List.range (rowCount (reg s) (actProg s) p)).all (fun t => (rowWaits s p t).isNone))

/-- PASS_DONE (R103, R107, R117 to R126, R181). -/
def execPassDone (p : Fin 16) (s : State) : Res := .next (if canFinish s p then logOrder (finishPass s p) s.flt.logcount else s)

/-- BASELINE_VALID (R110): the 32 frames of a reseat have passed. -/
def execBaselineValid (p : Fin 16) (s : State) : Res :=
  .next (setPass s p (fun x => { x with bvalid := x.bvalid || (x.seen && x.seat == 0) }))

/-- RETRACK_END (R114): the 16 frames have passed. -/
def execRetrackEnd (p : Fin 16) (s : State) : Res :=
  .next (setPass s p (fun x => { x with retrack := if x.retrack = some 0 then none else x.retrack }))

/-- NEG_RESEAT (R113). -/
def execNegReseat (p : Fin 16) (i : Nat) (s : State) : Res := .next (if pipeWorks s p then negTry s p i else s)

/-- BLRELEASE (R113). -/
def execBlrelease (p : Fin 16) (s : State) : Res := .next (if pipeWorks s p then frzRelease s p else s)

/-- PIPE_FENCE (R130): a check has failed in 16 consecutive frames. -/
def execPipeFence (p : Fin 16) (s : State) : Res := .next (if 16 ≤ (getPass s p).failFrames then fallEval (pipeFence s p 1) else s)

/-- R110, R114: a write of PIPECMD. -/
def pipeCmd (s : State) (w : W16) : State :=
  let p := fld w 0 4
  if (passList (reg s) (actProg s)).contains p && ownsArea (reg s) (actProg s) p then
    (match fld w 4 2 with
     | 1 => fallEval (reseatPass s p)
     | 2 => setPass s p (fun x => { x with retrack := some 16 })
     | _ => s)
  else s

/-- RESEAT (R110): a PIPECMD write. -/
def execReseat (w : W16) (s : State) : Res := .next (cfgWrites s (fun s => pipeCmd s w))

/-- RETRACK (R114): a PIPECMD write. -/
def execRetrack (w : W16) (s : State) : Res := .next (cfgWrites s (fun s => pipeCmd s w))

end Sys2Proof.Machine
end

