-- ==== Sys2Proof/Machine/Queues.lean ====
section
/-! DEFINITION. The Report Queue and the Bulk Queue (R281 to R296). -/
namespace Sys2Proof.Machine

/-- R281: capacity in words, and the modulus of the pointers (R289). -/
def qCapacity (bulk : Bool) : Nat := if bulk then 32768 else 8192
def qModulus (bulk : Bool) : Nat := 2 * qCapacity bulk

/-- R289: COUNT. -/
def qCount (q : Queue) : Nat := q.words.length

/-- R285: bytes packed into words; the last word is tagged EOP, and VB when it holds one byte. -/
def packWords : List Byte → List QWord
  | [] => []
  | [a] => [⟨BitVec.ofNat 16 (a.toNat * 256), true, true⟩]
  | [a, b] => [⟨BitVec.ofNat 16 (a.toNat * 256 + b.toNat), true, false⟩]
  | a :: b :: rest => ⟨BitVec.ofNat 16 (a.toNat * 256 + b.toNat), false, false⟩ :: packWords rest

/-- R286: QHDR for a pending drop count. -/
def qhdr (drop : Nat) : W16 := if drop = 0 then 0 else BitVec.ofNat 16 (0x8000 + drop)

/-- R292: the pending drop count saturates. -/
def addDrop (q : Queue) (n : Nat) : Queue := { q with drop := min 0x7FFF (q.drop + n) }

/-- The words of a packet given its bytes after QHDR. -/
def packet (drop : Nat) (bytes : List Byte) : List QWord := packWords (be16 (qhdr drop) ++ bytes)

/-- R293, R294: every stored word is discarded. -/
def qEmpty (q : Queue) : Queue := { q with words := [], p := q.w, pkt := 0, flush := false }

/-- R294: the packet in progress is discarded too. -/
def qEmptyNow (q : Queue) : Queue := { qEmpty q with writing := [] }

/-- R295: packets discarded: those that PKT counts, and the one in progress. -/
def qHeld (q : Queue) : Nat := q.pkt + b2n (!q.writing.isEmpty)

/-- R296: the queue emptied before CORE enters retention. -/
def qRetain (q : Queue) : Queue := qEmptyNow (addDrop q (qHeld q))

/-- R296: both queues emptied. Packets handed over and not yet taken are discarded with them. -/
def emptyQueues (s : State) : State :=
  let f := fun (q : Queue) => { qRetain (addDrop q q.ready.length) with ready := [] }
  { s with rq := f s.rq, bq := f s.bq }

/-- R283: the producer that goes first. -/
def rank : Producer → Nat
  | .link => 0
  | .streamer => 1
  | .assembler => 2
  | .firmware => 2

/-- R283: the packet that the queue takes next, and the rest. -/
def nextReady (l : List (Producer × List Byte)) : Option ((Producer × List Byte) × List (Producer × List Byte)) :=
  match l.find? (fun x => rank x.1 == 0), l.find? (fun x => rank x.1 == 1), l.head? with
  | some x, _, _ => some (x, l.erase x)
  | none, some x, _ => some (x, l.erase x)
  | none, none, some x => some (x, l.erase x)
  | none, none, none => none

/-- A packet handed to a queue (R283). -/
def handOver (s : State) (bulk : Bool) (who : Producer) (bytes : List Byte) : State :=
  setQueue s bulk (fun q => { q with ready := q.ready ++ [(who, bytes)] })

/-- R291, R292: a packet taken by the queue: dropped for want of room, or begun. -/
def qTake (bulk : Bool) (q : Queue) (bytes : List Byte) : Queue :=
  let ws := packet q.drop bytes
  if qCapacity bulk - qCount q < ws.length then { addDrop q 1 with loss := satInc q.loss }
  else { q with writing := ws, drop := 0 }

/-- R283: up to n words of the packet in progress are written. -/
def qWrite (bulk : Bool) (q : Queue) (n : Nat) : Queue :=
  let ws := q.writing.take n
  { q with words := q.words ++ ws, writing := q.writing.drop n, w := (q.w + ws.length) % qModulus bulk
           pkt := q.pkt + (ws.filter (fun x => x.eop)).length }

/-- R295: a queue reset. -/
def queueResetOp (s : State) (bulk : Bool) (why : QCause) : State :=
  let s1 := setQueue s bulk (fun q => { qEmptyNow (addDrop q (qHeld q)) with w := 0, p := 0, qerr := true })
  raise (logEv s1 0x15 (b2n bulk) (match why with
    | .pointer => 0
    | .ecc => 1)) 7

/-- QUEUE_RESET (R295). -/
def execQueueReset (bulk : Bool) (why : QCause) (s : State) : Res :=
  .next (if coreRuns s then queueResetOp s bulk why else s)

/-- R290, R295: a host read of the data register; `found` is what the SECDED bits of the word at P show. -/
def queueRead (s : State) (bulk : Bool) (found : Upset) : State :=
  let q := getQueue s bulk
  match q.words with
  | [] => setHd (setQueue s bulk (fun q => { q with underrun := true })) 0
  | x :: rest =>
    match found with
    | .double => setHd (queueResetOp s bulk .ecc) 0
    | e =>
      let s1 := setQueue s bulk (fun q => { q with words := rest, p := (q.p + 1) % qModulus bulk, pkt := if x.eop then q.pkt - 1 else q.pkt })
      setHd (if e = .single then countSoft s1 else s1) x.data

/-- R289, R293: a pending flush at a packet boundary. -/
def flushEffect (s : State) (bulk : Bool) : State :=
  let q := getQueue s bulk
  if q.flush && q.writing.isEmpty then setQueue s bulk qEmpty else s

/-- R290, R293, R294, R295: a write of RQCTL or BQCTL. -/
def queueCtl (s : State) (bulk : Bool) (w : W16) : State :=
  let s1 := setQueue s bulk (fun q => { q with underrun := q.underrun && !(bit w 2), qerr := q.qerr && !(bit w 3) })
  if bit w 1 then setQueue s1 bulk qEmptyNow
  else if bit w 0 then flushEffect (setQueue s1 bulk (fun q => { q with flush := true })) bulk
  else s1

/-- QUEUE_FLUSH_EFFECT (R293). -/
def execQueueFlushEffect (bulk : Bool) (s : State) : Res := .next (flushEffect s bulk)

end Sys2Proof.Machine
end

