-- ==== Sys2Proof/Machine/Boot.lean ====
section
/-! DEFINITION. The boot image (R355 to R361), entry to TREE and RUN (R356, R362), and the start of Carud (R213, R348). -/
namespace Sys2Proof.Machine

/-! ### Carud starts (R213, R256, R348, R362) -/

/-- The register block and the return stack at their reset values; control, fence and microcode stay. -/
def carudRegs (c : Carud) : Carud :=
  { micro := c.micro, halt := c.halt, fen := c.fen, dfcause := c.dfcause, lastv := c.lastv, st := c.st }

/-- Carud at vector 0; it runs once HALT is 0, and not while fenced. The base firmware starts anew. -/
def carudStart (s : State) : State :=
  { s with cpu := { carudRegs s.cpu with st := if s.cpu.fen then s.cpu.st else if s.cpu.halt then .halted else .running }
           pa := { s.pa with late := [] }, fw := {} }

/-! ### Reading the image (R357) -/

def imgByte (s : State) (i : Nat) : Byte := rd8 s (granBase + i)
def imgBytes (s : State) (i n : Nat) : List Byte := (List.range n).map (fun j => imgByte s (i + j))
def imgBe (s : State) (i n : Nat) : Nat := fromBe (imgBytes s i n)
def imgLength (s : State) : Nat := imgBe s 4 4
def imgSecs (s : State) : Nat := imgBe s 10 2

/-- A section descriptor. -/
structure Section where
  typ  : Nat
  dest : Nat
  off  : Nat
  size : Nat
  deriving DecidableEq, Repr

def imgSection (s : State) (i : Nat) : Section :=
  let a := 32 + 16 * i
  ⟨imgBe s a 1, imgBe s (a + 4) 4, imgBe s (a + 8) 4, imgBe s (a + 12) 4⟩

/-- R249: words of MICRO space. -/
def microWords : Nat := 0x820

/-- R357, R359: a section lies inside the image and its destination, and its TYPE and its CONFIG records are defined. -/
def sectionGood (s : State) (x : Section) : Bool :=
  decide (x.off + x.size ≤ imgLength s) &&
  (match x.typ with
   | 1 => decide (x.dest + x.size ≤ 0x40000)
   | 2 => decide (dataBase ≤ x.dest) && decide (x.dest + x.size ≤ dataBase + 0x20000)
   | 3 => decide (2 * x.dest + x.size ≤ 2 * microWords)
   | 4 => (List.range (x.size / 8)).all (fun i =>
       let sp := imgBe s (x.off + 8 * i) 1 / 32
       sp == 0 || sp == 5)
   | 5 => true
   | _ => false)

/-- R359: why the image in Granary fails its check: 0 header, 1 image, 2 section (R380). -/
def imageFault (s : State) : Option Nat :=
  let len := imgLength s
  let n := imgSecs s
  if imgBe s 0 4 ≠ 0x5E480B01 ∨ imgBe s 28 4 ≠ (crc32 (imgBytes s 0 28)).toNat ∨ len < 64 ∨ 1048576 < len ∨ n < 1 ∨ 64 < n then some 0
  else if imgBe s 24 4 ≠ (crc32 (imgBytes s 32 (len - 32))).toNat then some 1
  else if 32 + 16 * n ≤ len ∧ (List.range n).all (fun i => sectionGood s (imgSection s i)) then none
  else some 2

/-! ### Registers that an access acts on (R70, R204, R256, R364, R367) -/

/-- R367: a write of UNFSEL. -/
def unfselWrite (s : State) (w : W16) : State :=
  let s1 := plainWrite s 0x1700 w
  { s1 with flt := { s1.flt with stale := true } }

def refuse (s : State) : State := { s with flt := { s.flt with res := 3 } }

/-- R367: an UNFCMD command, keyed. -/
def unfKeyed (w : W16) : Bool := fld w 8 8 == 0x5A && (fld w 0 2 == 1 || fld w 0 2 == 2)

/-- Writes of CONFIG page 0 that do more than store RW bits, whoever makes them; none for a word of another kind. -/
def configFlag (s : State) (w : Nat) (v : W16) : Option State :=
  if w = 0x101 then some { s with ana := { s.ana with shdOvl := s.ana.shdOvl &&& ~~~(BitVec.ofNat 4 v.toNat) } }
  else if w = 0x102 then some (calcfgWrite s v)
  else if w = 0x103 then some { s with ana := { s.ana with clampFlg := s.ana.clampFlg &&& ~~~v } }
  else if w = 0x1240 then some (pipeCmd s v)
  else if w = 0x1600 then some { s with pwr := { s.pwr with vhvLoss := s.pwr.vhvLoss && !(bit v 3), refLoss := s.pwr.refLoss && !(bit v 4) } }
  else if 0x1680 ≤ w ∧ w < 0x1700 then some { s with pwr := { s.pwr with aonscr := sset zero16 s.pwr.aonscr (w - 0x1680) v } }
  else if w = 0x1700 then some (unfselWrite s v)
  else if w = 0x1702 then some { s with flt := { s.flt with ign := s.flt.ign && !(bit v 4) } }
  else if w = 0x4A08 then some (zclrWrite s false v)
  else if w = 0x4A09 then some (zclrWrite s true v)
  else if w = 0x4A0B then some (permClr s v)
  else if w = 0x4D02 then some (lampfltWrite s v)
  else none

/-! ### Unpacking (R359) -/

/-- Bytes written to a memory with valid check bits (R209). -/
def wrMem (s : State) (a : Nat) (bs : List Byte) : State :=
  let ok := fun (w : Nat) => !(decide (a < 4 * w + 4) && decide (4 * w < a + bs.length))
  let s1 := wrBytes s a bs
  { s1 with mem := { s1.mem with bad := s1.mem.bad.filter ok, soft := s1.mem.soft.filter ok } }

def setMicro (s : State) (w : Nat) (v : W16) : State := { s with cpu := { s.cpu with micro := sset zero16 s.cpu.micro w v } }

/-- R359: a CONFIG record for a word of CONFIG page 0, as a write of that word outside RUN: HALT takes its value, which holds Carud from its
start on (R362); a repair command is refused (R367); the assembler takes nothing but Carud's writes (R297). -/
def recordWrite (s : State) (w : Nat) (v : W16) : State :=
  if w = 0x1300 then { s with cpu := { s.cpu with halt := bit v 0, evt := if bit v 2 then putBit s.cpu.evt 6 true else s.cpu.evt } }
  else if w = 0x1401 ∨ w = 0x1402 ∨ w = 0x1403 then s
  else if w = 0x1701 then (if unfKeyed v then refuse s else s)
  else (configFlag s w v).getD (plainWrite s w v)

/-- R357: a CONFIG record for this device is staged; CONFIG page 1 holds the zone bitmaps (R179). -/
def applyRecord (s : State) (a : Nat) : State :=
  let b0 := imgBe s a 1
  let w := imgBe s (a + 2) 2
  let v := w16 (imgBe s (a + 4) 2)
  let tgt := imgBe s (a + 6) 2 % 512
  if tgt != 0x1FF && (tgt == 0 || tgt != (ownAddr s).toNat) then s
  else if b0 / 32 == 5 then (if b0 % 2 == 0 then auxWrite s w v else s)
  else if b0 % 2 == 1 then (if w < 32768 then bitmapWrite s w v else s)
  else recordWrite s w v

/-- R340, R357: a ROUTETAB entry, applied by a manager. -/
def applyRoute (s : State) (a : Nat) : State :=
  let adr := imgBe s a 2 % 512
  let rt := imgBe s (a + 3) 5 % 2 ^ 36
  if isManager s then
    plainWrite (plainWrite (plainWrite s (0x7000 + 4 * adr) (w16 rt)) (0x7001 + 4 * adr) (w16 (rt / 65536)))
      (0x7002 + 4 * adr) (w16 (rt / 2 ^ 32 + 16 * (imgBe s (a + 2) 1 % 16) + 0x8000))
  else s

/-- R357, R359: a MICRO section. LOCK keeps out writes through the window (R255); the loader unpacks an image whatever it is, as after
DORMANT, which loses the store (R347; log 60). -/
def applyMicro (s : State) (x : Section) : State :=
  (List.range (x.size / 2)).foldl (fun s i => setMicro s (x.dest + i) (w16 (imgBe s (x.off + 2 * i) 2))) s

def applySection (s : State) (x : Section) : State :=
  match x.typ with
  | 1 => wrMem s (codeBase + x.dest) (imgBytes s x.off x.size)
  | 2 => wrMem s x.dest (imgBytes s x.off x.size)
  | 3 => applyMicro s x
  | 4 => (List.range (x.size / 8)).foldl (fun s i => applyRecord s (x.off + 8 * i)) s
  | 5 => (List.range (x.size / 8)).foldl (fun s i => applyRoute s (x.off + 8 * i)) s
  | _ => s

def unpack (s : State) : State :=
  let flags := imgBe s 9 1
  let s1 := (List.range (imgSecs s)).foldl (fun s i => applySection s (imgSection s i)) s
  { s1 with pwr := { s1.pwr with imgLock := flags.testBit 0, imgBcast := flags.testBit 1, loaded := true }, lnk := { s1.lnk with imgLen := imgLength s } }

/-! ### Boot states (R356, R362) -/

/-- R267: the level that PERF.REQ asks for; 3 acts as 2. -/
def perfLevel (s : State) : BitVec 2 := if s.pwr.perfReq = 3 then 2 else s.pwr.perfReq

/-- R346, R362: the level change toward PERF.REQ begins where the levels differ; where they do not, none is in progress. -/
def perfBegin (s : State) : State :=
  if perfLevel s = s.pwr.perfNow then { s with pwr := { s.pwr with perfBusy := false } } else { s with pwr := { s.pwr with perfBusy := true, perfTgt := perfLevel s } }

/-- R353, R187: SENSE counts as started: zone baselines are seated again, permits start their counts anew, and the first edge of a SYN source
begins a new interval (log 14). -/
def senseFresh (s : State) : State :=
  { s with
    beat := { s.beat with scanFrames := 0, running := false }
    car := { s.car with run := none, shown := none, syn := s.car.syn.map (fun x => { x with seen := false, last := x.last - s.beat.clk }) }
    ana := { s.ana with subs := [] }
    zon := { s.zon with zones := s.zon.zones.map (fun z => { z with bvalid := false, evals := 0, tcnt := 0, rcnt := 0, clear := 0, seen := false }) }
    out := { s.out with entries := s.out.entries.map (fun _ => {}) } }

/-- R327, R361: an image for broadcast is kept by its manager when Granary is cleared, as devices enumerated later get it (R362; DESIGN CHOICE,
log 116). -/
def imageKept (s : State) : List Byte := if isManager s && s.pwr.imgBcast then imgBytes s 0 s.lnk.imgLen else []

/-- R362 steps 1 to 4, but for the level: Granary is cleared, MICRO locked as the image says, Carud started, BOOTDONE set. -/
def runCommon (s : State) : State :=
  let s1 := clearMem { s with lnk := { s.lnk with img := imageKept s } } granBase (granBase + 0x100000)
  let s2 := carudStart { s1 with pwr := { s1.pwr with lock := s1.pwr.lock || s1.pwr.imgLock } }
  raise { s2 with pwr := { s2.pwr with boot := .run, reload := false }, beat := { s2.beat with first := true } } 15

/-- R362, R353: RUN after reset or DORMANT: the requested level and mode, the start-up calibration, SENSE started. A wake from
DORMANT into WATCH enters it at the first beat. -/
def runFresh (s : State) : State :=
  let woke := s.pwr.change != .idle
  let watch := s.pwr.reqMode == .watch
  let s1 := { s with
    pwr := { s.pwr with mode := .scan, change := if watch then .toWatch else .idle, mbusy := watch, fromDormant := false }
    ana := { s.ana with startCal := 16 } }
  let s2 := perfBegin (senseFresh s1)
  auxStart (if woke && !watch then raise s2 6 else s2) true

/-- R362: RUN is entered. A reload of the image (R348) repeats neither the start-up calibration nor a start of SENSE (R353). -/
def enterRun (s : State) : State := if s.pwr.reload then perfBegin (runCommon s) else runFresh (runCommon s)

/-- R356: TREE, entered by a manager; manager A is the ringmaster (R16). -/
def enterTree (s : State) : State :=
  { s with
    pwr := { s.pwr with boot := .tree }
    lnk := { s.lnk with ring := s.pwr.role == .managerA, stby := false, service := 0, hbSeen := false, enumerated := false, bcastDone := false } }

/-- R356, R348: the image is in place. A reload goes straight to RUN; a worker waits until it holds an address. -/
def afterLoad (s : State) : State :=
  if s.pwr.reload then enterRun s
  else if isManager s then enterTree s
  else if s.lnk.addr = 0 then s
  else enterRun s

/-- R359: the check fails. -/
def loadFail (s : State) (why : Nat) : State :=
  logEv { s with pwr := { s.pwr with boot := if s.pwr.bootSrc = 3 ∧ s.pwr.boot = .load then .hostload else .bootflt } } 0x1B 0 (w16 why)

/-- R359, R361: the staged image is checked and unpacked. -/
def loadCheck (s : State) : State :=
  match imageFault s with
  | some why => loadFail s why
  | none => afterLoad (unpack s)

/-- R358: the first read of a flash load: the header. -/
def headerRead : FlashRead := { cmd := 0x03, adr4 := false, khz := 10000, dummy := 0, first := 0, count := 32 }

/-- R358: the read of the rest, as FLRD names it. Read command 3 is reserved: which command it gives is a free value (log 131). -/
def restRead (flrd : Byte) (count : Nat) : FlashRead :=
  let adr4 := bit flrd 2
  let cmd : Byte := match fld flrd 0 2 with
    | 0 => if adr4 then 0x13 else 0x03
    | 1 => if adr4 then 0x3C else 0x3B
    | 2 => if adr4 then 0x6C else 0x6B
    | _ => Config.flashCmd adr4
  { cmd := cmd, adr4 := adr4, khz := [10000, 20000, 25000, 50000].getD (fld flrd 4 2) 0
    dummy := if fld flrd 0 2 = 1 ∨ fld flrd 0 2 = 2 then 8 else 0, first := 32, count := count }

/-- R358: what the reads of a load return; what a reserved read command returns is free (log 131). -/
def flashRest (s : State) (flrd : Byte) (count : Nat) : List Byte :=
  if fld flrd 0 2 = 3 then (List.range count).map (fun i => Config.flashByte (32 + i)) else (s.pwr.flash.drop 32).take count

/-- R357, R358: the flash image staged in Granary from offset 0: the header, then the rest as the header has it. -/
def stageFlash (s : State) : State :=
  let flrd := (s.pwr.flash.drop 8).headD 0
  let rest := min 1048576 (fromBe ((s.pwr.flash.drop 4).take 4)) - 32
  wrMem { s with pwr := { s.pwr with flashReads := [headerRead, restRead flrd rest] } } granBase (s.pwr.flash.take 32 ++ flashRest s flrd rest)

/-- R355, R356: the device leaves CLOCKS, or begins to load again (R348), for the state that its boot source gives. -/
def beginLoad (s : State) : State :=
  match s.pwr.bootSrc.toNat with
  | 0 => { s with pwr := { s.pwr with boot := if isManager s then .bootflt else .load, loaded := false }, lnk := { s.lnk with imgGot := 0, imgLen := 0 } }
  | 2 => { s with pwr := { s.pwr with boot := .hostload, loaded := false } }
  | _ => stageFlash { s with pwr := { s.pwr with boot := .load, loaded := false } }

/-- R345, R363: the PLLs have locked: SENSE, CORE and LINK run, and the beat with them; after DORMANT, LINK sends fill (R339). -/
def clocksUp (s : State) : State :=
  { s with
    pwr := { s.pwr with vok := true, refOk := true, sense := .run, core := .run, link := .run, perfNow := 0, perfTgt := 0, perfBusy := false }
    beat := { s.beat with no := if s.pwr.fromDormant then s.pwr.savedBeat + 1 else 0, clk := 0 }
    lnk := { s.lnk with line := if s.pwr.fromDormant then fillLine s else s.lnk.line } }

/-- CLOCKS_LOCKED (R355, R356, R15, R358): `flash` is what the flash holds. -/
def execClocksLocked (flash : List Byte) (s : State) : Res :=
  .next (
    if s.pwr.boot != .clocks || s.pwr.refStop then s
    else
      (let s1 := clocksUp { s with pwr := { s.pwr with flash := flash } }
       if s1.pwr.role == .none then { s1 with pwr := { s1.pwr with boot := .strapflt } } else beginLoad s1))

/-- CLOCKS_TIMEOUT (R356). -/
def execClocksTimeout (s : State) : Res :=
  .next (if s.pwr.boot = .clocks then { s with pwr := { s.pwr with boot := .bootflt } } else s)

/-- R361: bytes 0 to LENGTH - 1 of a link image have arrived, LENGTH being the header's. -/
def linkImageIn (s : State) : Bool := decide (8 ≤ s.lnk.imgGot) && decide (imgLength s ≤ s.lnk.imgGot)

/-- LOAD_COMPLETE (R356, R359): the image has been staged; it is checked and unpacked. While REFCLK is lost the domains that do so are stopped
(R344). -/
def execLoadComplete (s : State) : Res :=
  .next (
    if s.pwr.boot != .load || s.pwr.loaded || s.pwr.refStop || (s.pwr.bootSrc == 0 && !(linkImageIn s)) then s else loadCheck s)

/-! ### The host load (R269, R360) -/

def hl (s : State) (i : Nat) : Nat := (rd32 s (dataBase + 2 * 0xFFF0 + 4 * i)).toNat

/-- R360: CODECRC, each word high byte first. -/
def codeCrc (s : State) (len : Nat) : W32 :=
  crc32 ((List.range (len / 4)).flatMap (fun i => be32 (rd32 s (codeBase + 4 * i))))

/-- R269, R360: why the host load fails its check. -/
def hostLoadFault (s : State) : Option Nat :=
  let len := hl s 1
  if hl s 0 ≠ 0x5E484C44 ∨ len % 4 ≠ 0 ∨ 262144 < len then some 0
  else if hl s 2 ≠ (codeCrc s len).toNat then some 1
  else none

/-- R360: the broadcast image of a ringmaster that the host loaded: one CODE section and one MICRO section. -/
def buildImage (s : State) : State :=
  let len := hl s 1
  let b32 := fun (n : Nat) => be32 (BitVec.ofNat 32 n)
  let code := (List.range len).map (fun i => rd8 s (codeBase + i))
  let mic := (List.range microWords).flatMap (fun w => be16 (sget zero16 s.cpu.micro w))
  let total := 64 + len + 2 * microWords
  let secs := b32 0x01000000 ++ b32 0 ++ b32 64 ++ b32 len ++ b32 0x03000000 ++ b32 0 ++ b32 (64 + len) ++ b32 (2 * microWords)
  let flags : Byte := BitVec.ofNat 8 (hl s 3 % 4)
  let head := b32 0x5E480B01 ++ b32 total ++ [0, flags] ++ be16 2 ++ List.replicate 12 0 ++ be32 (crc32 (secs ++ code ++ mic))
  wrMem { s with lnk := { s.lnk with imgLen := total } } granBase (head ++ be32 (crc32 head) ++ secs ++ code ++ mic)

/-- R269: GO in HOSTLOAD. -/
def hostGo (s : State) : State :=
  match hostLoadFault s with
  | some why => loadFail s why
  | none =>
    let f := hl s 3
    let s1 := { s with pwr := { s.pwr with imgLock := f.testBit 0, imgBcast := f.testBit 1, loaded := true } }
    afterLoad (if f.testBit 1 && isManager s then buildImage s1 else s1)

end Sys2Proof.Machine
end

