-- ==== Sys2Proof/Machine/LinkOps.lean ====
section
/-! DEFINITION. Link ports: states, sequences, queues toward a neighbour, mailboxes, routes and the fence count (R299 to R340). -/
namespace Sys2Proof.Machine

/-! ### Ports (R317, R318, R340) -/

/-- R267: LINKSTAT takes a port's state; a change sets IRQSTAT.LINK. -/
def portSt (s : State) (k : Nat) (st : PortSt) : State :=
  if (getPort s k).st = st then s else raise (setPort s k (fun p => { p with st := st })) 11

/-- R313: the LINKSEQ after n. -/
def nextSeq (n : Byte) : Byte := if n = 255 then 1 else n + 1

/-- R324, R321, R356, R393: an upstream end that may use its line: one that is not fenced; a manager's from TREE on, a worker's once it holds an
address and above depth 12. -/
def downlinkOn (s : State) (k : Nat) : Bool :=
  isDownlink s k && portEnabled s k && (getPort s k).st != .fenced &&
  (if isManager s then s.pwr.boot == .tree || inRun s else s.lnk.addr != 0 && decide (s.lnk.depth < 12))

/-- R311: a worker's port on its B side. -/
def sideOf (s : State) (k : Nat) : Bool := isUplink s 1 && k % 2 == 1
def uplinkOf (sideB : Bool) : Nat := if sideB then 1 else 0
/-- The UP downlinks of a side; every UP port of a manager. -/
def upDownlinks (s : State) (sideB : Bool) : List Nat :=
  (List.range 6).filter (fun k => isDownlink s k && (getPort s k).st == .up && (isManager s || sideOf s k == sideB))
def upPorts (s : State) : List Nat := (List.range 6).filter (fun k => (getPort s k).st == .up)

def isMgrAddr (a : BitVec 9) : Bool := a == 0x1F0 || a == 0x1F1
/-- R312: a branch root: both uplinks lead directly to managers, as SRC of what came in last on them shows. -/
def isRoot (s : State) : Bool := isUplink s 1 && isMgrAddr (getPort s 0).src && isMgrAddr (getPort s 1).src

/-! ### Fence count (R33, R273) -/

/-- R33: devices that have yet to acknowledge the current epoch, the ringmaster's own fence included. -/
def pendOf (s : State) : Nat :=
  (s.lnk.members.filter (fun m => !m.acked && (getPort s m.port).st != .fenced)).length + b2n s.beat.fenceWait.isSome

/-- R267, R273: EPOCH.DONE sets; its change from 0 to 1 sets IRQSTAT.FENCEDONE. -/
def fenceDone (s : State) : State :=
  if s.beat.done then s else raise { s with beat := { s.beat with done := true } } 4

/-- R273: PEND and DONE follow on the ringmaster. -/
def pendUpdate (s : State) : State :=
  if !s.lnk.ring || s.beat.done then s
  else if pendOf s = 0 then fenceDone { s with beat := { s.beat with pend := 0 } }
  else { s with beat := { s.beat with pend := pendOf s } }

/-! ### Queues toward a neighbour -/

/-- R329: a REPORT enters the mailbox of its source on an uplink; what it displaces counts in MBOXOVW. -/
def mboxPut (s : State) (k : Nat) (p : Parcel) : State :=
  let boxes := (getPort s k).boxes
  let old := (boxes.find? (fun b => b.src == p.src)).getD ⟨p.src, p.frameq, []⟩
  let kept := if old.frameq = p.frameq then (if 3 ≤ old.parcels.length then old.parcels.drop 1 else old.parcels) else []
  let lost := old.parcels.length - kept.length
  let rest := boxes.filter (fun b => b.src != p.src)
  let below := rest.filter (fun b => decide (b.src.toNat < p.src.toNat))
  let above := rest.filter (fun b => decide (p.src.toNat < b.src.toNat))
  let s1 := setPort s k (fun q => { q with boxes := below ++ [⟨p.src, p.frameq, kept ++ [p]⟩] ++ above })
  { s1 with lnk := { s1.lnk with mboxovw := satAdd s1.lnk.mboxovw lost } }

/-- R318, R329: a REPORT that was sent and not acknowledged goes back in front of its source's mailbox: unless a newer frame's parcels are
there, or three of its own. What finds no place counts in MBOXOVW. -/
def mboxBack (s : State) (k : Nat) (p : Parcel) : State :=
  match (getPort s k).boxes.find? (fun b => b.src == p.src) with
  | none => mboxPut s k p
  | some b =>
    if b.frameq = p.frameq ∧ b.parcels.length < 3 then
      setPort s k (fun q => { q with boxes := q.boxes.map (fun x => if x.src = p.src then { x with parcels := p :: x.parcels } else x) })
    else { s with lnk := { s.lnk with mboxovw := satInc s.lnk.mboxovw } }

/-- A parcel readied on an uplink (R315, R329, R330). -/
def putUp (s : State) (k : Nat) (p : Parcel) : State :=
  if p.typ = tyAlert then putAlert s k p
  else if p.typ = tyReport then mboxPut s k p
  else if p.typ = tyBulk then setPort s k (fun q => { q with bulk := q.bulk ++ [p] })
  else if p.typ = tyWinrsp then setPort s k (fun q => { q with winrsp := q.winrsp ++ [p] })
  else setPort s k (fun q => { q with pri2 := q.pri2 ++ [p] })

/-- A parcel readied on a downlink, in order of arrival. -/
def putDown (s : State) (k : Nat) (p : Parcel) : State := setPort s k (fun q => { q with down := q.down ++ [p] })
def putDownAll (s : State) (ks : List Nat) (p : Parcel) : State := ks.foldl (fun s k => putDown s k p) s

/-- R308, R311: FWDDROP counts. -/
def fwddrop (s : State) : State := { s with lnk := { s.lnk with fwddrop := satInc s.lnk.fwddrop } }

/-! ### Port state changes -/

/-- R317, R313: the port reaches UP: sequences begin anew, and what was not acknowledged is sent anew, first. -/
def portUp (s : State) (k : Nat) (d : BitVec 10) : State :=
  let old := (getPort s k).unacked.map (fun u => u.p)
  let up := isUplink s k
  let s1 := setPort s k (fun p => { p with
    txSeq := 0, rxSeq := 0, unacked := [], meas := [], tries := 0, lost := 0, dly := d, dlyValid := true, trained := some d.toNat
    down := if up then p.down else old ++ p.down
    pri2 := if up then old.filter (fun x => x.pri == 2) ++ p.pri2 else p.pri2
    winrsp := if up then old.filter (fun x => x.typ == tyWinrsp) ++ p.winrsp else p.winrsp
    bulk := if up then old.filter (fun x => x.typ == tyBulk) ++ p.bulk else p.bulk
    beatDue := !up })
  let s2 := if up then (old.filter (fun x => x.typ == tyReport)).foldr (fun x s => mboxBack s k x) s1 else s1
  portSt s2 k .up

/-- R279: a broadcast write has been sent on every port that is UP: BUSY clears (log 99). -/
def bcastSent (s : State) : State :=
  if s.win.busy && s.win.bcast && !(s.lnk.ports.any (fun p => p.st == .up && p.down.any (fun x => x.typ == tyWinreq && x.dst == 0x1FF))) then
    { s with win := { s.win with busy := false, tag := none } }
  else s

/-- What a port loses when it leaves TRAIN or UP; the BEATs of a worker's uplink are no longer present, but for the one that the beat comes from,
whose BEATs must stop for 2 nominal periods first (R319). -/
def portQuiet (s : State) (k : Nat) : State :=
  let s1 := setPort s k (fun p => { p with beatSeen := false, window := false, owed := false, lost := 0, meas := [], trained := none, dlyValid := false, sentAlerts := [], windowBad := false })
  { s1 with lnk := { s1.lnk with beatSeen := if isWorker s && decide (k < 2) && k != b2n s.lnk.beatB then putBit s1.lnk.beatSeen k false else s1.lnk.beatSeen } }

/-- R313, R317, R318, R380: a port is fenced; `why` is the DETAIL of LINKFEN. The devices behind it no longer count (R33, R197). -/
def fencePort (s : State) (k : Nat) (why : W16) : State :=
  if (getPort s k).st = .fenced then refault s 8 k
  else permitsCheck (pendUpdate (fenceNote (refault (bcastSent (portSt (portQuiet s k) k .fenced)) 8 k) 0x16 k why))

/-- R305, R317, R318: a port goes DOWN; the fourth time within 1 s it is fenced. -/
def portDown (s : State) (k : Nat) : State :=
  let p := getPort s k
  if p.st = .down ∨ p.st = .fenced then s
  else
    (let s1 := bcastSent (portSt (portQuiet s k) k .down)
     let ts := (p.downs.filter (fun t => decide (s.beat.now < t + 200000000))) ++ [s.beat.now]
     let s2 := setPort s1 k (fun q => { q with downs := ts })
     if 4 ≤ ts.length then fencePort s2 k 2 else s2)

/-- R317: a TRAIN attempt fails; the eighth in a row fences the port. -/
def trainFail (s : State) (k : Nat) : State :=
  let n := (getPort s k).tries + 1
  let s1 := setPort s k (fun p => { p with tries := n, meas := [] })
  if 8 ≤ n then fencePort s1 k 1 else s1

/-- R317: a port in TRAIN goes DOWN: the attempt has failed. -/
def trainDown (s : State) (k : Nat) : State := portDown (trainFail s k) k

/-- R339: LINK runs again after HOLD or a loss of REFCLK: fill on each enabled downlink, and every port trains anew. -/
def portsRestart (s : State) : State :=
  let s1 := [0, 1, 2, 3, 4, 5].foldl (fun s k => if (getPort s k).st = .fenced then s else portSt (portQuiet s k) k .down) s
  { s1 with lnk := { s1.lnk with line := fillLine s1, beatSeen := 0 } }

/-! ### Routes (R311, R324) -/

/-- R309, R324: a device lies behind a port; `near`: it is the port's downstream end, of which there is one. -/
def addRoute (s : State) (sideB : Bool) (addr : BitVec 9) (port : Nat) (near : Bool) : State :=
  let e : Route := { sideB := sideB, addr := addr, port := port, near := near }
  let rest := (s.lnk.routes.filter (fun r => !(r.sideB == sideB && r.addr == addr))).map
    (fun r => if near && r.port == port then { r with near := false } else r)
  { s with lnk := { s.lnk with routes := rest ++ [e] } }

def routeOf (s : State) (sideB : Bool) (addr : BitVec 9) : Option Nat :=
  (s.lnk.routes.find? (fun r => r.sideB == sideB && r.addr == addr)).map (fun r => r.port)

/-- R323, R325: a device is enumerated, or found behind a port again. -/
def addMember (s : State) (addr : BitVec 9) (hops port : Nat) : State :=
  if s.lnk.members.any (fun m => m.addr == addr) then
    { s with lnk := { s.lnk with members := s.lnk.members.map (fun m => if m.addr == addr then { m with hops := hops, port := port } else m) } }
  else { s with lnk := { s.lnk with members := s.lnk.members ++ [⟨addr, hops, port, true, 0⟩] } }

/-- R325: TREECNT of a manager. -/
def treeCount (s : State) : State :=
  if s.lnk.enumerated then
    { s with lnk := { s.lnk with
        treecnt := BitVec.ofNat 9 (s.lnk.members.length + 1)
        treedepth := BitVec.ofNat 4 (s.lnk.members.foldl (fun a m => max a m.hops) 0) } }
  else s

/-- R14, R330: this worker's own parcel goes to the uplink toward the ringmaster. -/
def sendUp (s : State) (p : Parcel) : State := putUp s (uplinkOf s.lnk.ringB) p

/-- R29, R326: this device acknowledges the epoch it has applied. -/
def sendAck (s : State) : State :=
  if isWorker s then sendUp s (mkParcel s tyFenceack (ringAddr s) 0 [])
  else if s.lnk.ring then pendUpdate s
  else if s.lnk.stby then putDownAll s (upPorts s) (mkParcel s tyFenceack (peerAddr s) 0 [])
  else s

end Sys2Proof.Machine
end

