-- ==== Sys2Proof/Machine/Assembler.lean ====
section
/-! DEFINITION. Carud's events and control registers (R245, R256), the parcel assembler (R297, R298), packets entering a queue (R283),
and the frame streamer (R131, R132). -/
namespace Sys2Proof.Machine

/-! ### Carud's events (R245) -/

/-- R331: report data waits for this manager's firmware. -/
def linkRx (s : State) : Bool := isManager s && rf (reg s) 0x1508 0 9 != 0 && s.lnk.head.toNat != rf (reg s) 0x150B 0 9

/-- R245: EVTSTAT. -/
def evtStat (s : State) : Byte :=
  BitVec.ofNat 8 (b2n (s.cpu.evtpass != 0) + 2 * b2n (bit s.cpu.evt 1) + 4 * b2n (bit s.cpu.evt 2)
    + 8 * b2n (s.aux.valid && rbit (reg s) 0x10000 1) + 16 * b2n (linkRx s) + 64 * b2n (bit s.cpu.evt 6) + 128 * b2n (bit s.cpu.evt 7))

/-- R245: an enabled event is pending. -/
def evtPending (s : State) : Bool := evtStat s &&& s.cpu.evten != 0

/-! ### The assembler (R297, R298) -/

/-- R297: an incomplete parcel is discarded. -/
def paAbort (s : State) : State :=
  if s.pa.isOpen then { s with pa := { s.pa with isOpen := false, abrt := true, left := 0, bytes := [] } } else s

/-- The parcel that the assembler has built. -/
def paParcel (s : State) : Parcel :=
  mkParcel s (if s.pa.bulk then tyBulk else tyReport) (ringAddr s) (frameQ s) s.pa.bytes

/-- R330: room in the BULK buffer of the uplink toward the ringmaster. -/
def bulkRoom (s : State) : Bool := decide ((getPort s (uplinkOf s.lnk.ringB)).bulk.length < 4)

/-- R291, R292: the queue takes a packet. -/
def takePacket (s : State) (bulk : Bool) (bytes : List Byte) : State := setQueue s bulk (fun q => qTake bulk q bytes)

/-- R283, R297, R330: the complete parcel goes to its queue or uplink, or waits for it with READY clear. -/
def paDeliver (s : State) : State :=
  let p := paParcel s
  let done := fun (s : State) => { s with pa := { s.pa with isOpen := false, bytes := [] } }
  if isWorker s then
    (if !s.pa.bulk || bulkRoom s then done (sendUp s p)
     else { s with pa := { s.pa with isOpen := false, bytes := [], ready := false, parcel := some p } })
  else
    (let q := getQueue s s.pa.bulk
     if q.writing.isEmpty && q.ready.isEmpty then done (takePacket s s.pa.bulk (packetBytes p))
     else
       (let s1 := done (handOver s s.pa.bulk .assembler (packetBytes p))
        { s1 with pa := { s1.pa with ready := false } }))

/-- R297: a parcel begins. -/
def paBegin (s : State) (v : W16) : State :=
  let n := min 252 (fld v 0 8)
  let s1 := paAbort s
  let s2 := { s1 with pa := { s1.pa with isOpen := true, left := BitVec.ofNat 8 n, len := BitVec.ofNat 8 n, bulk := bit v 8, bytes := [] } }
  if n = 0 then paDeliver s2 else s2

/-- R297, R298: Carud's write of PASTART. -/
def pastartWrite (s : State) (v : W16) : State :=
  if s.pa.ready then paBegin s v else { s with pa := { s.pa with held := some v } }

/-- R297: Carud's write of PADATA. -/
def padataWrite (s : State) (v : W16) : State :=
  if !s.pa.isOpen then { s with pa := { s.pa with abrt := true } }
  else
    (let n := s.pa.left.toNat
     let s1 := { s with pa := { s.pa with bytes := s.pa.bytes ++ (be16 v).take n, left := BitVec.ofNat 8 (n - 2) } }
     if n ≤ 2 then paDeliver s1 else s1)

/-- R297: PASTAT.ABRT clears. -/
def pastatWrite (s : State) (v : W16) : State := { s with pa := { s.pa with abrt := s.pa.abrt && !(bit v 2) } }

/-- R252, R298: a store of a user instruction that waited for a held PASTART, where it names a register of the assembler. -/
def paStore (s : State) (x : Nat × Nat × W32) : Option State :=
  if x.2.1 != 2 then none
  else match x.1 with
    | 0x422802 => some (pastartWrite s (x.2.2.setWidth 16))
    | 0x422804 => some (padataWrite s (x.2.2.setWidth 16))
    | 0x422806 => some (pastatWrite s (x.2.2.setWidth 16))
    | _ => none

/-- R252, R298: the stores that wait act in order, as far as they name the assembler; the others act when Carud goes on (log 138). -/
def paLate : List (Nat × Nat × W32) → State → State
  | [], s => { s with pa := { s.pa with late := [] } }
  | x :: t, s =>
    match paStore s x with
    | none => { s with pa := { s.pa with late := x :: t } }
    | some s1 => if s1.pa.held.isSome then { s1 with pa := { s1.pa with late := t } } else paLate t s1

/-- R257, R298: an instruction whose writes wait has not ended. -/
def paWaits (s : State) : Bool := s.pa.held.isSome || !s.pa.late.isEmpty

/-- R257: a HALT that waited for the end of the instruction takes effect. -/
def haltNow (s : State) : State :=
  if s.cpu.halt && s.cpu.st == .running && !(paWaits s) then { s with cpu := { s.cpu with st := .halted } } else s

/-- R298: READY returns, and a PASTART that was held acts, and what waited behind it. -/
def paReady (s : State) : State :=
  let s1 := { s with pa := { s.pa with ready := true, held := none } }
  match s.pa.held with
  | none => s1
  | some v => haltNow (paLate s.pa.late (paBegin s1 v))

/-- R330: a worker's complete BULK parcel enters its buffer once there is room. -/
def paRelease (s : State) : State :=
  match s.pa.parcel with
  | none => s
  | some p => if bulkRoom s then paReady (sendUp { s with pa := { s.pa with parcel := none } } p) else s

/-! ### Carud's control (R256, R257) -/

/-- R257: HALT takes effect at an instruction boundary; a WAIT in progress ends first, and an instruction whose writes wait (R298). -/
def haltWrite (c : Carud) (halt waits : Bool) : Carud :=
  { c with
    halt := halt
    st := if c.fen then c.st
          else if halt then (if c.st = .running ∧ ¬ waits then .halted else c.st)
          else if c.halt ∧ c.st = .halted then .running else c.st }

/-- R256: a write of CARUDCTL, at the access. -/
def carudctlWrite (s : State) (w : W16) : State :=
  let s1 := { s with cpu := haltWrite s.cpu (bit w 0) (paWaits s) }
  let s2 := if bit w 1 && !s1.cpu.fen then carudStart s1 else s1
  if bit w 2 then { s2 with cpu := { s2.cpu with evt := putBit s2.cpu.evt 6 true } } else s2

/-- CARUD_HALT (R257): a CARUDCTL write. -/
def execCarudHalt (w : W16) (s : State) : Res := .next (cfgWrites s (fun s => carudctlWrite s w))

/-- CARUD_RUN (R256): a CARUDCTL write. -/
def execCarudRun (w : W16) (s : State) : Res := .next (cfgWrites s (fun s => carudctlWrite s w))

/-- CARUD_RESET (R256): a CARUDCTL write. -/
def execCarudReset (w : W16) (s : State) : Res := .next (cfgWrites s (fun s => carudctlWrite s w))

/-- CARUD_DOORBELL (R245, R256): a CARUDCTL write. -/
def execCarudDoorbell (w : W16) (s : State) : Res := .next (cfgWrites s (fun s => carudctlWrite s w))

/-- Carud runs, no earlier write of its own waits (R298), and it is not to stop for HOLD or DORMANT (R349). -/
def carudActs (s : State) : Bool := coreRuns s && s.cpu.st == .running && s.pa.held.isNone && s.pa.late.isEmpty && !(scanEnded s)

/-! ### Packets entering a queue (R283, R291, R293) -/

/-- R283: the queue takes the next packet that is ready. -/
def queueTakeNext (s : State) (bulk : Bool) : State :=
  match nextReady (getQueue s bulk).ready with
  | none => s
  | some x =>
    let s1 := takePacket (setQueue s bulk (fun q => { q with ready := x.2 })) bulk x.1.2
    if x.1.1 = .assembler then paReady s1 else s1

/-- QUEUE_PACKET_WRITE (R283, R291 to R293): up to n words of the packet in progress, or of the next one, are written. -/
def execQueuePacketWrite (bulk : Bool) (n : Nat) (s : State) : Res :=
  .next (
    if !(coreRuns s) || !(inRun s) then s
    else
      (let s1 := flushEffect s bulk
       let s2 := if (getQueue s1 bulk).writing.isEmpty then queueTakeNext s1 bulk else s1
       flushEffect (setQueue s2 bulk (fun q => qWrite bulk q n)) bulk))

/-! ### The frame streamer (R131, R132) -/

def streamOn (s : State) (p : Nat) : Bool :=
  rbit (reg s) 0x1246 0 && rbit (reg s) 0x1247 p && ownsArea (reg s) (actProg s) p && (passList (reg s) (actProg s)).contains p

/-- R131: the passes that the streamer sends. -/
def streamPasses (s : State) : List Nat := (passList (reg s) (actProg s)).filter (streamOn s)

def streamRaw (s : State) : Bool := rbit (reg s) 0x1246 1

/-- R132: a row's stored check agrees with its data. -/
def streamGood (s : State) (p t : Nat) : Bool :=
  let cols := colCount (reg s) (actProg s) p
  if streamRaw s then
    residue ((List.range cols).foldl (fun a c => a + (rawNode (rawWord s p (t * cols + c))).n) 0)
      == (rd16 s (passBase s p + checkOff (reg s) (actProg s) p t)).toNat
  else !((crcBad s p (b2n (getPass s p).cur)).contains t)

/-- R131: the payload of one segment: columns c to c + n - 1 of row t. -/
def streamPayload (s : State) (p t c n : Nat) (last : Bool) : List Byte :=
  let cols := colCount (reg s) (actProg s) p
  let g := groupOfRow (reg s) (actProg s) p t
  let hd := fun (k : Nat) => rd32 s (passBase s p + 4 * k)
  let word := fun (j : Nat) => if streamRaw s then be32 (rawWord s p (t * cols + c + j)) else be16 (deltaWord s p (b2n (getPass s p).cur) (t * cols + c + j))
  [ if streamRaw s then 0x11 else 0x10,
    BitVec.ofNat 8 (16 * p + 8 * b2n last + 4 * b2n (bit (hd 4) g) + 2 * b2n (bit (hd 3) g) + b2n (bit (hd 2) g)),
    BitVec.ofNat 8 t, BitVec.ofNat 8 c ] ++ be32 (hd 0) ++ (List.range n).flatMap word

/-- R131, R330: a segment is sent; a worker whose buffer is full discards it. -/
def streamSend (s : State) (payload : List Byte) : State :=
  let x := mkParcel s tyBulk (ringAddr s) (frameQ s) payload
  if isManager s then handOver s true .streamer (packetBytes x)
  else if bulkRoom s then sendUp s x
  else { s with bq := { s.bq with loss := satInc s.bq.loss } }

/-- R109, R131, R132: what the streamer reads for row t of pass p: the header, the row's data and its stored check; offset and length each. -/
def streamSpans (s : State) (p t : Nat) : List (Nat × Nat) :=
  let r := reg s
  let b := actProg s
  let cols := colCount r b p
  let img := b2n (getPass s p).cur
  let span := fun (o n : Nat) => (gbase r b p + o, n)
  if streamRaw s then [span 0 20, span (rawOff (t * cols)) (4 * cols), span (checkOff r b p t) 2]
  else [span 0 20, span (deltaOff r b p img (t * cols)) (2 * cols), span (checkOff r b p t + 4 + 4 * img) 4]

/-- R131: pass p is the last of the frame to send: the highest masked one whose pipeline is not fenced. Where it is skipped (R104), no segment of the
frame carries the mark (DESIGN CHOICE, log 28). -/
def streamLast (s : State) (p : Nat) : Bool := ((streamPasses s).filter (fun q => !((getPass s q).pipeFen))).getLast? == some p

/-- R109, R131, R132: row t of pass p; a pass whose pipeline a read has fenced sends no more. -/
def streamRow (s : State) (p : Nat) (t : Nat) : State :=
  let cols := colCount (reg s) (actProg s) p
  let seg := if streamRaw s then 32 else 64
  let n := ceilDiv cols seg
  let spans := streamSpans s p t
  let s1 := spans.foldl (fun s x => granRead s x.1 x.2) s
  if (getPass s p).pipeFen then s
  else if spans.any (fun x => granBad s x.1 x.2) then s1
  else if !(streamGood s p t) then { s1 with car := { s1.car with chkcnt := satInc s1.car.chkcnt } }
  else (List.range n).foldl (fun s i =>
    streamSend s (streamPayload s p t (seg * i) (min seg (cols - seg * i)) (streamLast s p && t + 1 == rowCount (reg s) (actProg s) p && i + 1 == n))) s1

/-- R131: the pass's image completed last, in this frame or finished late in the next, is one that the streamer sends. -/
def streamDue (s : State) (p : Nat) : Bool :=
  match (getPass s p).image with
  | none => false
  | some n => n.toNat % 2 ^ rf (reg s) 0x1246 2 4 == 0

/-- STREAM_FRAME (R131, R132): the image that pass p has just completed is sent, once. -/
def execStreamFrame (p : Fin 16) (s : State) : Res :=
  .next (
    if streamOn s p && coreRuns s && streamDue s p && !(bit s.mem.granFen (gbase (reg s) (actProg s) p / 0x10000)) then
      logOrder ((List.range (rowCount (reg s) (actProg s) p)).foldl (fun s t => streamRow s p t) (setPass s p (fun x => { x with image := none })))
        s.flt.logcount
    else s)

end Sys2Proof.Machine
end

