-- ==== Sys2Proof/Machine/Modes.lean ====
section
/-! DEFINITION. Mode and level changes, wakes, retention and loss (R22, R270, R271, R346 to R354). -/
namespace Sys2Proof.Machine

/-! ### Retention (R347, R348, R296, R257) -/

/-- R347: the blocks that RETMASK does not select. -/
def notRetained (s : State) : BitVec 22 :=
  ~~~(BitVec.ofNat 22 ((reg s 0x1601).toNat + 65536 * rf (reg s) 0x1602 0 6))

/-- R349: the pipeline finishes the last frame and the queues are emptied; with them, a manager's assembler is ready again (R298). -/
def coreQuiet (s : State) : State :=
  let s1 := (passList (reg s) (actProg s)).foldl (fun s p => if canFinish s p then finishPass s p else s) s
  let s2 := emptyQueues s1
  if isManager s2 then paReady s2 else s2

/-- R349, R257: Carud stops, its operations in flight complete, and CORE enters retention. From WATCH to HOLD, CORE stays in retention, and
RETMASK takes force anew (R364). -/
def coreStop (s : State) : State :=
  if s.pwr.core == .retention then { s with mem := { s.mem with lost := s.mem.lost ||| notRetained s } }
  else if s.pwr.core == .off then s
  else { s with pwr := { s.pwr with core := .retention }, mem := { s.mem with lost := s.mem.lost ||| notRetained s }, cpu := mqDrain s.cpu }

/-- R257: Carud stands at an instruction boundary, so that CORE may stop: no write of an instruction waits. -/
def coreMayStop (s : State) : Bool := !(coreRuns s) || !(paWaits s)

/-- R349, R257: CORE is quiet, and stops once Carud stands at an instruction boundary. -/
def coreTry (s : State) : State :=
  let s1 := if coreRuns s then coreQuiet s else s
  if coreMayStop s1 then coreStop s1 else s1

/-- The Carud addresses of block i (R347). -/
def blockRange (i : Nat) : Nat × Nat :=
  if i < 16 then (granBase + 65536 * i, granBase + 65536 * (i + 1))
  else if i < 20 then (codeBase + 65536 * (i - 16), codeBase + 65536 * (i - 15))
  else (dataBase + 65536 * (i - 20), dataBase + 65536 * (i - 19))

/-- R347: every lost block is written with zero and valid check bits. -/
def lostZero (s : State) : State :=
  ((List.range 22).filter (fun i => bit s.mem.lost i)).foldl (fun s i => clearMem s (blockRange i).1 (blockRange i).2) s

/-- R110: a pass's baselines lie partly or wholly in Granary bank k. -/
def basesInBank (s : State) (p k : Nat) : Bool :=
  let r := reg s
  let b := actProg s
  ownsArea r b p && decide (gbase r b p + baseOff r b p 0 < 0x10000 * (k + 1)) && decide (0x10000 * k < gbase r b p + deltaOff r b p 0 0)

/-- R110, R348: passes whose baselines were lost are reseated. -/
def lostSeats (s : State) : State :=
  (passList (reg s) (actProg s)).foldl (fun s p =>
    if (List.range 16).any (fun k => bit s.mem.lost k && basesInBank s p k) then reseatPass s p else s) s

/-- R348: how Carud goes on when CORE runs again. A device that loads its image anew is not in RUN: every permit is OFF (R356). -/
def carudReturn (s : State) : State :=
  let lost := s.mem.lost
  let s1 := lostSeats s
  let s2 := { s1 with mem := { s1.mem with lost := 0 } }
  if fld lost 16 4 != 0 then
    beginLoad (permitsOff { s2 with pwr := { s2.pwr with reload := true }, cpu := { s2.cpu with st := if s2.cpu.fen then s2.cpu.st else .halted } })
  else if fld lost 20 2 != 0 then carudStart s2
  else s2

/-- R271: a level requested while CORE was in retention takes force when CORE runs again; a device that loads its image anew does so at PERF0,
and the level takes force on entry to RUN (R346, R348). -/
def perfResume (s : State) : State :=
  if fld s.mem.lost 16 4 != 0 then { s with pwr := { s.pwr with perfNow := 0, perfTgt := 0, perfBusy := false } }
  else if perfLevel s = s.pwr.perfNow then { s with pwr := { s.pwr with perfBusy := false } }
  else raise { s with pwr := { s.pwr with perfNow := perfLevel s, perfTgt := perfLevel s, perfBusy := false } } 6

/-- CORE runs again. -/
def coreResume (s : State) : State :=
  carudReturn (lostZero (perfResume { s with pwr := { s.pwr with core := .run } }))

/-! ### DORMANT (R347, R349, R353, R366, R378) -/

/-- What a fenced Carud keeps when CORE is switched off. -/
def carudOff (c : Carud) : Carud := { fen := c.fen, st := if c.fen then .dfault else .halted }

/-- A link port's fence is held in AON (R366). -/
def portOff (p : Port) : Port := { st := if p.st = .fenced then .fenced else .down }

/-- R347: SENSE, CORE and LINK are switched off; AON keeps its registers, the fences and the beat number. -/
def domainsOff (s : State) : State :=
  { pwr := { s.pwr with sense := .off, core := .off, link := .off, vok := false, perfBusy := false, perfTgt := s.pwr.perfNow, savedBeat := s.beat.no, roleKept := roleWord s
                        wakePorts := putBit (putBit 0 0 (rbit (reg s) 0x1500 6 && portEnabled s 0)) 1 (rbit (reg s) 0x1500 6 && portEnabled s 1 && isUplink s 1) }
    beat := { now := s.beat.now, free := s.beat.free }
    regs := { staged := s.regs.staged.filter (fun e => isAonKey e.1), force := s.regs.force.filter (fun e => isAonKey e.1) }
    ana := { ampFen := s.ana.ampFen, elFen := s.ana.elFen, shdFen := s.ana.shdFen }
    car := { passes := s.car.passes.map (fun p => { pipeFen := p.pipeFen }) }
    aux := { adcFen := s.aux.adcFen, excOff := s.aux.excOff }
    zon := { zones := s.zon.zones.map (fun z => { fen := z.fen }) }
    out := { permits := s.out.permits }
    cpu := carudOff s.cpu
    mem := { granFen := s.mem.granFen }
    win := s.win
    lnk := { ports := s.lnk.ports.map portOff }
    flt := { logcount := s.flt.logcount, loglost := s.flt.loglost, errcnt0 := s.flt.errcnt0, errcnt1 := s.flt.errcnt1, res := s.flt.res, ign := s.flt.ign }
    jtag := s.jtag
    pending := s.pending }

/-! ### Changes (R270, R349) -/

/-- R367: a repair test ends when the mode leaves SCAN. -/
def testAbort (s : State) : State :=
  if s.flt.busy then { s with flt := { s.flt with busy := false, ok := false, res := 4 } } else s

/-- R270, R349: the change from the mode in force toward REQ begins. -/
def beginToward (s : State) : State :=
  let go := fun (c : Change) (s : State) => { s with pwr := { s.pwr with change := c, mbusy := true } }
  match s.pwr.mode, s.pwr.reqMode with
  | .scan, .watch => go .toWatch s
  | .scan, .hold => go (.entering .hold 4) (permitsOff s)
  | .scan, .dormant => go (.entering .dormant 4) (permitsOff s)
  | .watch, .hold => go (.entering .hold 4) (permitsOff s)
  | .watch, .dormant => go (.entering .dormant 4) (permitsOff s)
  | .hold, .dormant => go .holdToDormant s
  | _, _ => beginWake s

/-- R270, R350: a change ends; a wake that was held acts, and a REQ that differs begins the next change. -/
def changeDone (s : State) : State :=
  let s1 := { s with pwr := { s.pwr with change := .idle, mbusy := false } }
  let s2 := if s1.pwr.mode = s1.pwr.reqMode then raise s1 6 else s1
  match s2.pwr.wakeHeld with
  | some w => wakeNow { s2 with pwr := { s2.pwr with wakeHeld := none } } w.1 (heldTarget s2 w)
  | none => if s2.pwr.mode = s2.pwr.reqMode then s2 else beginToward s2

/-- R351: a request for m is a wake from the mode in force. -/
def isWakeReq (s : State) (m : Mode) : Bool :=
  ((s.pwr.mode == .hold || s.pwr.mode == .dormant) && (m == .scan || m == .watch)) || (s.pwr.mode == .watch && m == .scan)

/-- A change that enters HOLD or DORMANT is in progress. -/
def enteringSleep (s : State) : Bool :=
  match s.pwr.change with
  | .entering _ _ => true
  | .holdToDormant => true
  | _ => false

/-- R270: a request for HOLD or DORMANT takes back the wake that an earlier request of the same kind holds (R350). -/
def unholdWake (s : State) (cause : Nat) : State :=
  match s.pwr.wakeHeld with
  | none => s
  | some w => { s with pwr := { s.pwr with wakeHeld := if putBit w.1 cause false = 0 then none else some (putBit w.1 cause false, w.2) } }

/-- R270, R338, R193: a mode is requested, by a keyed MODECTL write (cause bit 0) or the tree mode (cause bit 3). -/
def modeReq (s : State) (m : Mode) (cause : Nat) : State :=
  let s1 := { s with pwr := { s.pwr with reqMode := m } }
  let s2 := if m = .hold ∨ m = .dormant then unholdWake (permitsOff s1) cause else s1
  if isWakeReq s m || (enteringSleep s && (m == .scan || m == .watch)) then wakeEvent s2 cause m
  else if s2.pwr.change = .idle then (if s2.pwr.mode = m then s2 else beginToward s2) else s2

/-- R270: a write of MODECTL. -/
def modectlWrite (s : State) (w : W16) : State :=
  if fld w 8 8 = 0xA5 then modeReq s (modeOf (fld w 0 2)) 0 else s

/-- R349: WATCH is entered at a frame boundary: CORE stops, and the gesture engine takes over the AXIS baselines (R133). While a write of one of
Carud's instructions waits, the next boundary tries again (R257; log 138). -/
def watchEnter (s : State) : State :=
  match s.pwr.change with
  | .toWatch =>
    let s0 := coreTry s
    if coreRuns s0 then s0
    else
      (let s1 := testAbort s0
       changeDone (gestEnter { s1 with pwr := { s1.pwr with mode := .watch } }))
  | _ => s

/-- WATCH_ENTRY (R349): at a frame boundary, and at no other time; not while REFCLK is lost, when the mode does not change (R344). -/
def execWatchEntry (s : State) : Res := .next (if atBoundary s && !s.pwr.refStop then watchEnter s else s)

/-- R349: SCAN passes run from the first frame boundary after CORE runs. -/
def scanEnter (s : State) : State :=
  match s.pwr.change with
  | .watchToScan => if coreRuns s && inRun s then changeDone { s with pwr := { s.pwr with mode := .scan } } else s
  | _ => s

/-- R339, R349: a frame boundary while HOLD or DORMANT is being entered: the first one ends the scanning, stops CORE, or has a later one do so where
a write of one of Carud's instructions waits (R257), and turns the lamps off (R24). -/
def holdoverBeat (s : State) : State :=
  match s.pwr.change with
  | .entering m (n + 1) =>
    let s0 := if coreRuns s || n = 3 then coreTry s else s
    let s1 := if n = 3 then lampsOff (auxStop s0) else s0
    { s1 with pwr := { s1.pwr with change := .entering m n } }
  | _ => s

/-- R349: SENSE and LINK stop after the hold-over beats, and CORE where it still runs; not while REFCLK is lost, when the mode does not change
(R344). -/
def holdoverEnd (s : State) : State :=
  if s.pwr.refStop then s else
  match s.pwr.change with
  | .entering .dormant 0 => changeDone { (domainsOff (lampsOff (testAbort s))) with pwr := { (domainsOff (lampsOff (testAbort s))).pwr with mode := .dormant } }
  | .entering m 0 =>
    let s1 := lampsOff (testAbort (coreStop s))
    changeDone { s1 with pwr := { s1.pwr with sense := .retention, core := .retention, link := .retention, mode := m }
                         beat := { s1.beat with running := false } }
  | _ => s

/-- HOLDOVER_END (R339, R349). -/
def execHoldoverEnd (s : State) : Res := .next (holdoverEnd s)

/-- DORMANT_ENTRY_FROM_HOLD (R349). -/
def execDormantEntryFromHold (s : State) : Res :=
  .next (match s.pwr.change with
    | .holdToDormant =>
      let s1 := domainsOff s
      changeDone { s1 with pwr := { s1.pwr with mode := .dormant } }
    | _ => s)

/-- CORE_RESUMED (R348, R349): the CORE PLL has locked after a wake from WATCH. -/
def execCoreResumed (s : State) : Res :=
  .next (match s.pwr.change with
    | .watchToScan => if s.pwr.core = .retention ∧ ¬ s.pwr.refStop then coreResume s else s
    | _ => s)

/-- SENSE starts as after a wake from HOLD (R353, R354, R339): the oscillator of a worker and of the standby locks anew. What a manager has
from its remote devices stays, with its age: its link service has not begun anew (R197; DESIGN CHOICE, log 110). -/
def senseStart (s : State) : State :=
  let s0 := senseFresh { s with pwr := { s.pwr with sense := .run, link := .run } }
  let s1 := { s0 with beat := { s0.beat with lock := false, lockRun := 0, clk := 0 } }
  portsRestart s1

/-- SENSE_RESUMED (R347, R349, R353, R354). -/
def execSenseResumed (s : State) : Res :=
  .next (match s.pwr.change with
    | .resuming m =>
      if s.pwr.mode = .hold ∧ ¬ s.pwr.refStop then
        (let s1 := senseStart s
         let s2 := if m = .scan then coreResume s1 else lostZero s1
         let s3 := { s2 with pwr := { s2.pwr with mode := m } }
         changeDone (auxStart (if m = .watch then gestEnter s3 else s3) true))
      else s
    | _ => s)

/-! ### Levels (R271, R346) -/

/-- R271: a write of PERF. -/
def perfWrite (s : State) (w : W16) : State :=
  let s1 := { s with pwr := { s.pwr with perfReq := BitVec.ofNat 2 (fld w 0 2) } }
  if s1.pwr.perfBusy || !(coreRuns s1) then s1 else perfBegin s1

/-- PERF_CHANGE_DONE (R271, R346): a level written during the change follows. -/
def execPerfChangeDone (s : State) : Res :=
  .next (
    if s.pwr.perfBusy && coreRuns s then
      perfBegin (raise { s with pwr := { s.pwr with perfNow := s.pwr.perfTgt, perfBusy := false } } 6)
    else s)

/-! ### Wakes (R339, R351) -/

/-- R350: wakes are heard in RUN, and while the wake from DORMANT that came first starts the clocks. -/
def wakesHeard (s : State) : Bool := s.pwr.powered && (inRun s || (s.pwr.boot == .clocks && s.pwr.fromDormant))

/-- WAKE_PIN (R351). -/
def execWakePin (lowNs : Nat) (s : State) : Res :=
  .next (
    if wakesHeard s && rbit (reg s) 0x1603 0 && decide (1000 ≤ lowNs) then
      wakeEvent s 1 (if s.pwr.mode = .watch then .scan else wakeTarget s)
    else s)

/-- R339: activity on uplink k wakes. -/
def beaconWakes (s : State) (k : Nat) : Bool :=
  match s.pwr.mode with
  | .hold => isUplink s k && portEnabled s k && rbit (reg s) 0x1500 6
  | .dormant => isWorker s && bit s.pwr.wakePorts k
  | _ => false

/-- LINK_ACTIVITY_WAKE (R339, R351). -/
def execLinkActivityWake (port : Fin 2) (ns : Nat) (s : State) : Res :=
  .next (if wakesHeard s && beaconWakes s port && decide (2000 ≤ ns) then wakeEvent s 3 (wakeTarget s) else s)

end Sys2Proof.Machine
end

