-- ==== Sys2Proof/Machine/Link.lean ====
section
/-! DEFINITION. T-Link: receiving, forwarding, windows, training, the beat along the tree, enumeration, images and the two
managers (R299 to R340). -/
namespace Sys2Proof.Machine

/-! ### Receiving a parcel (R308, R313) -/

/-- R314: a parcel of the present window failed its check. -/
def windowFail (s : State) (k : Nat) : State := setPort s k (fun p => { p with windowBad := true })

/-- R308: a CRC failure. -/
def crcFail (s : State) (k : Nat) : State :=
  let s1 := setPort (windowFail s k) k (fun p => { p with err := satInc p.err })
  { s1 with flt := { s1.flt with errcnt1 := satInc s1.flt.errcnt1 } }

/-- R308, R313, R317: what a port does with a parcel of type `typ`; `f` takes an accepted one. -/
def receive (s : State) (k : Nat) (x : RxParcel) (typ : BitVec 6) (f : State → State) : State :=
  let st := (getPort s k).st
  if !(linkRuns s) || !s.pwr.powered || st == .fenced || !(portEnabled s k) then s
  else if x.viol || x.p.payload.length != x.p.len.toNat || decide (252 < x.p.len.toNat) then windowFail s k
  else if x.crc != maskedCrc x.p then crcFail s k
  else if !(typeDefined x.p.typ) then fwddrop s
  else if x.p.typ != typ then s
  else if !(isSequenced typ) then f s
  else if st == .up && x.p.linkseq == nextSeq (getPort s k).rxSeq then f (setPort s k (fun p => { p with rxSeq := x.p.linkseq }))
  else s

/-- R313: a parcel for which the device has no room is not taken: it stays unacknowledged, and is sent again. -/
def receiveRoom (s : State) (k : Nat) (x : RxParcel) (typ : BitVec 6) (room : Bool) (f : State → State) : State :=
  if !room && !x.viol && x.p.payload.length == x.p.len.toNat && x.crc == maskedCrc x.p && x.p.typ == typ then s else receive s k x typ f

/-! ### Forwarding by a worker (R311, R312) -/

def forMe (s : State) (p : Parcel) : Bool := p.dst == 0x1FF || (p.dst == ownAddr s && p.dst != 0)

/-- R311: an upward parcel from a downlink. -/
def forwardUp (s : State) (k : Nat) (p : Parcel) : State := putUp s (uplinkOf (sideOf s k)) p

/-- R311: a downward parcel from uplink k. -/
def forwardDown (s : State) (k : Nat) (p : Parcel) : State :=
  let side := k == 1
  if p.dst = 0x1FF then putDownAll s (upDownlinks s side) p
  else if p.dst = ownAddr s then s
  else match routeOf s side p.dst with
    | some d => putDown s d p
    | none => fwddrop s

/-- R312: a branch root relays to the other side's manager. -/
def relays (s : State) (k : Nat) (p : Parcel) : Bool :=
  isRoot s && (p.dst == 0x1FF || p.dst == (if k = 0 then 0x1F1 else 0x1F0))

/-- R311, R312: HEARTBEAT, FENCE, FENCEACK and TAKEOVER that come down. -/
def forwardRelay (s : State) (k : Nat) (p : Parcel) : State :=
  if relays s k p then
    (let s1 := putUp s (1 - k) p
     if p.dst = 0x1FF then forwardDown s1 k p else s1)
  else forwardDown s k p

/-- R312: whether a manager sees this parcel for the first time. -/
def isCopy (s : State) (p : Parcel) (no : W32) : Bool := s.lnk.copies.contains (p.typ, p.src, p.epoch, no)

/-- R312: a parcel is remembered, so that a copy that comes later is discarded: the last 128 of each TYPE and SRC (DESIGN CHOICE, log 127). -/
def seeCopy (s : State) (p : Parcel) (no : W32) : State :=
  let same := fun (c : BitVec 6 × BitVec 9 × Byte × W32) => c.1 == p.typ && c.2.1 == p.src
  let own := s.lnk.copies.filter same
  { s with lnk := { s.lnk with copies := s.lnk.copies.filter (fun c => !(same c)) ++ own.drop (own.length - 127) ++ [(p.typ, p.src, p.epoch, no)] } }

/-! ### Reports (R282, R329 to R331) -/

def ringSlots (s : State) : Nat := rf (reg s) 0x1508 0 9
def ringTail (s : State) : Nat := rf (reg s) 0x150B 0 9

/-- R331: the receive ring takes a parcel. -/
def ringPut (s : State) (k : Nat) (p : Parcel) : State :=
  let n := ringSlots s
  let h := s.lnk.head.toNat
  if n = 0 then s
  else if (h + 1) % n = ringTail s then { s with lnk := { s.lnk with rxloss := satInc s.lnk.rxloss } }
  else
    (let a := dataBase + 16 * rf (reg s) 0x1509 0 13 + 272 * h
     let s1 := wrMem s a (le16 (w16 k) ++ le16 (w16 (12 + p.len.toNat)) ++ packetBytes p)
     { s1 with lnk := { s1.lnk with head := BitVec.ofNat 9 ((h + 1) % n) } })

/-- R282, R296, R331: a manager's received REPORT or BULK parcel: the receive ring takes it where it is addressed to this manager, the
ringmaster's queue where QCFG says so. -/
def reportIn (s : State) (k : Nat) (p : Parcel) (bulk : Bool) : State :=
  let s1 := if p.dst = ownAddr s then ringPut s k p else s
  if s.lnk.ring && rbit (reg s) 0x1400 (b2n bulk) && coreRuns s && inRun s then handOver s1 bulk .link (packetBytes p) else s1

/-- REPORT_RX (R311, R329, R331). -/
def execReportRx (port : Fin 6) (x : RxParcel) (s : State) : Res :=
  .next (receive s port x tyReport (fun s =>
    if isManager s then reportIn s port x.p false else if isUplink s port then forwardDown s port x.p else forwardUp s port x.p))

/-- R330: a worker's buffer toward its own uplink takes a BULK parcel that comes in at port k. -/
def bulkTakes (s : State) (k : Nat) : Bool :=
  isManager s || isUplink s k || decide ((getPort s (uplinkOf (sideOf s k))).bulk.length < 4)

/-- BULK_RX (R311, R330, R331). -/
def execBulkRx (port : Fin 6) (x : RxParcel) (s : State) : Res :=
  .next (receiveRoom s port x tyBulk (bulkTakes s port) (fun s =>
    if isManager s then reportIn s port x.p true else if isUplink s port then forwardDown s port x.p else forwardUp s port x.p))

/-- R197: the newest ALERT of a device. -/
def remoteTake (s : State) (dev : BitVec 9) (trips : W32) : State :=
  permitsCount { s with out := { s.out with remotes := (s.out.remotes.filter (fun r => r.dev != dev)) ++ [⟨dev, trips, 0⟩] } }

/-- ALERT_RX (R197, R311, R314). -/
def execAlertRx (port : Fin 6) (x : RxParcel) (s : State) : Res :=
  .next (receive s port x tyAlert (fun s =>
    if isManager s then remoteTake s x.p.src (BitVec.ofNat 32 (beAt x.p.payload 0 4))
    else if isUplink s port then s else forwardUp s port x.p))

/-! ### Fences (R29, R33, R273, R326) -/

/-- R273: the epoch that EPOCH shows. -/
def curEpoch (s : State) : Byte := s.beat.fenceWait.getD s.beat.epoch

/-- R29, R273: a worker or the standby receives a fence. -/
def fenceIn (s : State) (e : Byte) : State := { s with beat := { s.beat with fenceWait := some e, done := false } }

/-- R19: a worker whose only uplink is L0 learns there which manager the tree has. -/
def mgrLearn (s : State) (k : Nat) (src : BitVec 9) : State :=
  if isWorker s && k == 0 && !(isUplink s 1) then { s with lnk := { s.lnk with mgr0 := src } } else s

/-- FENCE_RX (R326). -/
def execFenceRx (port : Fin 6) (x : RxParcel) (s : State) : Res :=
  .next (receive s port x tyFence (fun s =>
    if isManager s then
      (if s.lnk.ring || isCopy s x.p 0 then s else fenceIn (seeCopy s x.p 0) x.p.epoch)
    else if isUplink s port then fenceIn (forwardRelay (mgrLearn s port x.p.src) port x.p) x.p.epoch
    else s))

/-- R33: the ringmaster counts an acknowledgement of the current epoch. -/
def ackIn (s : State) (p : Parcel) : State :=
  if p.epoch = curEpoch s then
    pendUpdate { s with lnk := { s.lnk with members := s.lnk.members.map (fun m => if m.addr = p.src then { m with acked := true } else m) } }
  else s

/-- FENCEACK_RX (R33, R311, R312). -/
def execFenceackRx (port : Fin 6) (x : RxParcel) (s : State) : Res :=
  .next (receive s port x tyFenceack (fun s =>
    if isManager s then (if s.lnk.ring then ackIn s x.p else s)
    else if isUplink s port then forwardRelay s port x.p
    else forwardUp s port x.p))

/-! ### The beat along the tree (R319, R320, R337, R338) -/

/-- R319: the side a worker takes its beat from: the one whose BEATs carry RING, and otherwise L0 where it has BEATs. -/
def beatChoice (s : State) : Bool :=
  let has := fun k => bit s.lnk.beatSeen k
  let ring := fun k => has k && bit s.lnk.ringSeen k
  if ring 0 != ring 1 then ring 1 else !(has 0) && has 1

/-- R337: the ringmaster's side changes: mailboxes of the old side are emptied, and BULK goes to the new one. -/
def ringSide (s : State) (b : Bool) : State :=
  if s.lnk.ringB = b then s
  else
    (let old := uplinkOf s.lnk.ringB
     let bulk := (getPort s old).bulk
     let s1 := setPort { s with lnk := { s.lnk with ringB := b } } old (fun p => { p with boxes := [], bulk := [] })
     setPort s1 (uplinkOf b) (fun p => { p with bulk := p.bulk ++ bulk }))

/-- R337: BEATs carry RING on the other side only: those of the ringmaster's side so far are there and lack it. A side whose BEATs have stopped
waits for the TAKEOVER. -/
def ringFollow (s : State) : State :=
  let own := b2n s.lnk.ringB
  let other := b2n (!s.lnk.ringB)
  if bit s.lnk.beatSeen own && !(bit s.lnk.ringSeen own) && bit s.lnk.beatSeen other && bit s.lnk.ringSeen other then ringSide s (!s.lnk.ringB) else s

/-- R320: how far the estimate of the upstream beat start lies from the start of the device's own beat that is nearest to it, in quarter ns: the
parcel's K28.5 came `arrived` quarter ns after the start of the present beat; less the link's delay d, less TXOFS. -/
def beatOffset (s : State) (p : Parcel) (arrived : Int) (d : Nat) : Int :=
  let len : Int := 20 * s.beat.period
  let r := (arrived - d - beAt p.payload 4 3) % len
  if len < 2 * r then r - len else r

/-- R320: an estimate, in quarter ns from the prediction; the eighth in a row within 4 ns locks the oscillator. -/
def lockTake (s : State) (est : Int) : State :=
  let n := if est.natAbs ≤ 16 then min 8 (s.beat.lockRun + 1) else 0
  { s with beat := { s.beat with lockRun := n, lock := s.beat.lock || n == 8 } }

/-- R338: the tree mode is followed. -/
def followMode (s : State) : State :=
  let m := modeOf s.lnk.tmode.toNat
  if isWorker s && rbit (reg s) 0x1500 7 && s.lnk.tmval && inRun s && m != s.pwr.reqMode then modeReq s m 3 else s

/-- R27, R320, R338: the BEAT that the device follows, at its offset from the prediction. -/
def beatFollow (s : State) (p : Parcel) (est : Int) : State :=
  let f := byteAt p.payload 7
  let s1 := lockTake { s with
    beat := { s.beat with no := BitVec.ofNat 32 (beAt p.payload 0 4), lost := false }
    lnk := { s.lnk with tmode := BitVec.ofNat 2 f.toNat, tmval := bit f 2 } } est
  followMode s1

/-- R317: the BEAT brings a downstream port from DOWN to TRAIN, and from TRAIN to UP once it carries D. -/
def beatPort (s : State) (k : Nat) (p : Parcel) : State :=
  let d : BitVec 10 := BitVec.ofNat 10 (beAt p.payload 12 2)
  let s1 := setPort s k (fun q => { q with beatSeen := true, src := p.src })
  match (getPort s k).st with
  | .down => portSt s1 k .train
  | .train => if d = 0 then s1 else portUp s1 k d
  | _ => setPort s1 k (fun q => { q with dly := d, dlyValid := true })

/-- A BEAT on an uplink of a worker; D is the one it carries (R310). -/
def beatWorker (s : State) (k : Nat) (p : Parcel) (arrived : Int) : State :=
  let f := byteAt p.payload 7
  let s1 := beatPort s k p
  let s2 := { s1 with lnk := { s1.lnk with
    ringSeen := putBit s1.lnk.ringSeen k (bit f 3), beatSeen := putBit s1.lnk.beatSeen k true, beatAge := s1.lnk.beatAge.set k 0 } }
  let s3 := ringFollow { s2 with lnk := { s2.lnk with beatB := beatChoice s2 } }
  if uplinkOf s3.lnk.beatB = k ∧ (getPort s3 k).st = .up then beatFollow s3 p (beatOffset s3 p arrived (beAt p.payload 12 2 % 1024)) else s3

/-- BEAT_RX (R312, R317, R319, R320): the parcel's K28.5 came `arrived` quarter ns after the start of the device's present beat. -/
def execBeatRx (port : Fin 6) (x : RxParcel) (arrived : Int) (s : State) : Res :=
  .next (receive s port x tyBeat (fun s =>
    if isWorker s then (if port.val < 2 then beatWorker s port x.p arrived else s)
    else if s.lnk.stby then
      beatFollow { s with lnk := { s.lnk with ringSeen := putBit s.lnk.ringSeen 0 (bit (byteAt x.p.payload 7) 3), beatSeen := putBit s.lnk.beatSeen 0 true } } x.p
        (beatOffset s x.p arrived (getPort s port).dly.toNat)
    else s))

/-- BEAT_SIDE_SWITCH (R319): the BEATs on the beat side have stopped for two periods, and the other side's are present. -/
def execBeatSideSwitch (s : State) : Res :=
  .next (
    let other := !s.lnk.beatB
    if isWorker s && bit s.lnk.beatSeen (b2n other) then
      ringFollow { s with lnk := { s.lnk with beatSeen := putBit s.lnk.beatSeen (b2n s.lnk.beatB) false, beatB := other } }
    else s)

/-- R333: this manager's HEARTBEAT carries FAULT. -/
def selfFault (s : State) : Bool := s.cpu.fen || (s.lnk.ring && s.beat.lost) || rbit (reg s) 0x1500 11

/-- R319: the BEATs this device sends carry RING. -/
def carriesRing (s : State) : Bool :=
  if s.lnk.ring then true
  else if isManager s then bit s.lnk.ringSeen 0 && !s.beat.lost
  else bit s.lnk.ringSeen (b2n s.lnk.beatB)

/-- R310: the BEAT parcel of this device for port k. -/
def beatParcel (s : State) (k : Nat) : Parcel :=
  let tm := if s.lnk.ring then rf (reg s) 0x1500 8 2 else s.lnk.tmode.toNat
  let tv := if s.lnk.ring then rbit (reg s) 0x1500 10 else s.lnk.tmval
  let ofs := BitVec.ofNat 24 (20 * s.beat.clk)
  let f := BitVec.ofNat 8 (tm + 4 * b2n tv + 8 * b2n (carriesRing s) + 16 * b2n s.beat.lost)
  let d := match (getPort s k).trained with
    | some d => d
    | none => 0
  mkParcel s tyBeat 0x1FF 0 (be32 s.beat.no ++ (be32 (BitVec.ofNat 32 ofs.toNat)).drop 1 ++ [f] ++ be32 (BitVec.ofNat 32 (16 * s.beat.period)) ++ be16 (w16 d))

/-! ### Sequenced sending (R313) -/

/-- R313: an acknowledgement; what stays unacknowledged is due to be sent again. -/
def ackTake (p : Port) (a : Byte) : Port :=
  let rest := match p.unacked.findIdx? (fun u => u.p.linkseq == a) with
    | some i => p.unacked.drop (i + 1)
    | none => p.unacked
  { p with unacked := rest.map (fun u => { u with again := true }) }

/-- R313: the oldest parcel has been sent 16 times. -/
def spent (p : Port) : Bool :=
  match p.unacked with
  | u :: _ => decide (16 ≤ u.sends)
  | [] => false

/-- R313: an acknowledgement arrives at port k. -/
def ackPort (s : State) (k : Nat) (a : Byte) : State :=
  let s1 := setPort s k (fun p => ackTake p a)
  if spent (getPort s1 k) then fencePort s1 k 0 else s1

/-- R313: the resend that is due, oldest first, of those that the line may carry now. -/
def resendDue (p : Port) (may : Parcel → Bool) : Option Parcel := (p.unacked.find? (fun u => u.again && may u.p)).map (fun u => u.p)

/-- A resend is made. -/
def resend (s : State) (k : Nat) (x : Parcel) : State :=
  let s1 := setPort s k (fun p => { p with unacked := p.unacked.map (fun u => if u.p.linkseq = x.linkseq then { u with sends := u.sends + 1, again := false } else u) })
  { s1 with lnk := { s1.lnk with resendcnt := satInc s1.lnk.resendcnt } }

/-- A parcel is sent for the first time: the state that holds it, and the parcel as the line carries it. -/
def sendNew (s : State) (k : Nat) (x : Parcel) : State × Parcel :=
  if isSequenced x.typ then
    (let q := nextSeq (getPort s k).txSeq
     let y := { x with linkseq := q }
     (setPort s k (fun p => { p with txSeq := q, unacked := p.unacked ++ [⟨y, 1, false⟩] }), y))
  else (s, x)

/-- R313: room for a new sequenced parcel. -/
def seqRoom (p : Port) : Bool := decide (p.unacked.length < 4)

def setLine (s : State) (l : List LineItem) : State := { s with lnk := { s.lnk with line := l } }

/-! ### Windows of a downstream end (R303, R314, R315, R338) -/

/-- R315: the mailbox whose turn it is: the next source in ascending order, the WINRSP queue (none) standing once in the round. -/
def nextTurn (p : Port) : Option (Option (BitVec 9)) :=
  let srcs := p.boxes.map (fun b => b.src)
  let win : Option (Option (BitVec 9)) := if p.winrsp.isEmpty then none else some none
  match p.turn with
  | none => match srcs with
    | x :: _ => some (some x)
    | [] => win
  | some t => match srcs.find? (fun x => decide (t.toNat < x.toNat)) with
    | some x => some (some x)
    | none => match win with
      | some w => some w
      | none => (srcs.head?).map some

/-- Takes the parcel of a turn from its mailbox or the WINRSP queue. -/
def takeTurn (p : Port) (t : Option (BitVec 9)) : Port × Option Parcel :=
  match t with
  | none => ({ p with winrsp := p.winrsp.drop 1, turn := none }, p.winrsp.head?)
  | some x =>
    let box := (p.boxes.find? (fun b => b.src == x)).getD ⟨x, 0, []⟩
    let left := box.parcels.drop 1
    ({ p with boxes := if left.isEmpty then p.boxes.filter (fun b => b.src != x)
                       else p.boxes.map (fun b => if b.src = x then { b with parcels := left } else b)
              turn := some x }, box.parcels.head?)

/-- R338: what a downstream end in WATCH sends besides ALERTs: the parcels of R312. -/
def watchUp (t : BitVec 6) : Bool := t == tyHeartbeat || t == tyFence || t == tyFenceack || t == tyTakeover

/-- R315, R338: steps 3 to 5 of the choice, a port with its new parcel taken off. -/
def chooseNew (p : Port) (watch : Bool) : Port × Option Parcel :=
  match p.pri2.find? (fun x => !watch || watchUp x.typ) with
  | some x => ({ p with pri2 := p.pri2.erase x }, some x)
  | none =>
    let bulkOk := !p.bulk.isEmpty && !p.nobulk
    if watch then (p, none)
    else match nextTurn p with
      | some t =>
        if bulkOk && decide (3 ≤ p.windows) then ({ p with bulk := p.bulk.drop 1, windows := 0 }, p.bulk.head?)
        else takeTurn { p with windows := if bulkOk then p.windows + 1 else 0 } t
      | none => if bulkOk then ({ p with bulk := p.bulk.drop 1, windows := 0 }, p.bulk.head?) else (p, none)

/-- R330, R338: what a downstream end may send again: no BULK under NOBULK, and in WATCH the parcels of R312 alone. -/
def mayResendUp (s : State) (p : Port) (x : Parcel) : Bool :=
  !(p.nobulk && x.typ == tyBulk) && (s.pwr.mode != .watch || watchUp x.typ)

/-- R303, R315: the other parcel of a window, and the state after it. -/
def windowOther (s : State) (k : Nat) : State × Option Parcel :=
  let p := getPort s k
  if p.beatDue then (setPort s k (fun q => { q with beatDue := false }), some (beatParcel s k))
  else match resendDue p (mayResendUp s p) with
    | some x => (resend s k x, some x)
    | none =>
      if seqRoom p then
        (let c := chooseNew p (s.pwr.mode == .watch)
         match c.2 with
         | none => (s, none)
         | some x =>
           let r := sendNew (setPort s k (fun _ => c.1)) k x
           (r.1, some r.2))
      else (s, none)

/-- R303, R314: a window: ALERTs (those to be repeated first), one other parcel, END. -/
def windowSend (s : State) (k : Nat) (again : Bool) : State :=
  let p := getPort s k
  let repeated := if again then p.sentAlerts.filter (fun a => !(p.alerts.any (fun o => o.src == a.src))) else []
  let as := repeated ++ p.alerts
  let s1 := setPort s k (fun q => { q with sentAlerts := as, alerts := [] })
  let r := windowOther s1 k
  let other := match r.2 with
    | some x => [LineItem.parcel k x]
    | none => []
  setLine r.1 (as.map (LineItem.parcel k) ++ other ++ [.endMark k (getPort s k).rxSeq])

/-- R303, R313, R317: what a GRANT brings about at a downstream end. -/
def grantTake (s : State) (k : Nat) (p : Parcel) : State :=
  let f := p.frameq.toNat
  let s1 := setPort s k (fun q => { q with granted := some (BitVec.ofNat 3 (f / 4)), nobulk := f.testBit 0, src := p.src })
  if !((getPort s1 k).beatSeen) then s1
  else match (getPort s1 k).st with
    | .train => setLine s1 [.endMark k (getPort s1 k).rxSeq]
    | .up =>
      let s2 := ackPort s1 k p.linkseq
      if (getPort s2 k).st = .up then paRelease (windowSend s2 k (f.testBit 1)) else s2
    | _ => s1

/-- GRANT_RX (R303, R313, R315). -/
def execGrantRx (port : Fin 6) (x : RxParcel) (s : State) : Res :=
  .next (receive s port x tyGrant (fun s => if isWorker s && decide (port.val < 2) then grantTake s port x.p else s))

/-! ### The upstream end (R304 to R306, R313, R317) -/

def insertNat (x : Nat) : List Nat → List Nat
  | [] => [x]
  | y :: t => if x ≤ y then x :: y :: t else y :: insertNat x t

/-- R317: 16 of the measurements lie within 2 ns of their mean: that mean, in quarter ns. -/
def trainMean (meas : List Nat) : Option Nat :=
  let l := meas.foldr insertNat []
  let mean := fun (w : List Nat) => (roundDiv (w.foldl (fun (a : Int) (x : Nat) => a + x) 0) 16).toNat
  let ws := ((List.range (l.length - 15)).map (fun i => (l.drop i).take 16)).filter (fun w => w.length == 16)
  (ws.find? (fun w => w.all (fun x => decide (((x : Int) - mean w).natAbs ≤ 8)))).map mean

/-- R317: a round trip of `rt` quarter ns measured in TRAIN. -/
def trainTake (s : State) (k : Nat) (rt : Nat) : State :=
  let meas := (getPort s k).meas ++ [(rt - 240) / 2]
  let s1 := setPort s k (fun p => { p with meas := meas })
  match trainMean meas with
  | some d => portUp s1 k (BitVec.ofNat 10 d)
  | none => if 20 ≤ meas.length then trainFail s1 k else s1

/-- END_RX (R305, R313, R317): END with its acknowledgement and the inverse; `rt` is the round trip in quarter ns. -/
def execEndRx (port : Fin 6) (ack inv : Byte) (rt : Nat) (s : State) : Res :=
  .next (
    let k := port.val
    if !(linkRuns s) || !(downlinkOn s k) || !((getPort s k).window) then s
    else
      (let s1 := setPort s k (fun p => { p with window := false, lost := 0 })
       match (getPort s k).st with
       | .down => portSt s1 k .train
       | .train => trainTake s1 k rt
       | .up => if inv = ~~~ack then ackPort s1 k ack else s1
       | .fenced => s))

/-- R309, R330: the GRANT for port k. -/
def grantParcel (s : State) (k : Nat) : Parcel :=
  let p := getPort s k
  let nobulk := isWorker s && decide (4 ≤ (getPort s (uplinkOf (sideOf s k))).bulk.length)
  let child := if isManager s then (s.lnk.members.reverse.find? (fun m => m.port == k && m.hops == 1)).map (fun m => m.addr)
    else (s.lnk.routes.find? (fun r => r.port == k && r.near)).map (fun r => r.addr)
  { mkParcel s tyGrant (child.getD 0) (BitVec.ofNat 14 (b2n nobulk + 2 * b2n p.windowBad + 4 * k)) [] with linkseq := p.rxSeq }

/-- A GRANT opens a window. -/
def grantOpen (s : State) (k : Nat) (before : List LineItem) : State :=
  setLine (setPort s k (fun p => { p with window := true, windowBad := false, owed := false })) (before ++ [.parcel k (grantParcel s k)])

/-- GRANT_SEND (R304). A BEAT that is due starts first (R315). -/
def execGrantSend (port : Fin 6) (s : State) : Res :=
  .next (
    let p := getPort s port
    if linkRuns s && downlinkOn s port && (p.st == .train || p.st == .up) && !p.window && !p.beatDue then grantOpen s port [] else s)

/-- R324: a worker's confirming HELLO has been sent, so that its downlinks may start TRAIN. -/
def helloGone (s : State) : Bool :=
  isManager s || [0, 1].all (fun k => !((getPort s k).pri2.any (fun x => x.typ == tyHello && x.src == ownAddr s)))

/-- DOWN_PORT_BEACON (R317): a BEAT and a GRANT on an enabled DOWN port. -/
def execDownPortBeacon (port : Fin 6) (s : State) : Res :=
  .next (
    if linkRuns s && downlinkOn s port && helloGone s && (getPort s port).st == .down then grantOpen s port [.parcel port (beatParcel s port)] else s)

/-- R315: the rank of a downward type. -/
def downRank (t : BitVec 6) : Nat :=
  if t = tyTakeover then 0 else if t = tyFence then 1 else if t = tyFenceack then 2 else if t = tyHeartbeat then 3
  else if t = tyEnum then 4 else if t = tyWinreq then 5 else 6

/-- R338: what an upstream end sends in WATCH. -/
def watchSends (t : BitVec 6) : Bool := t == tyHeartbeat || t == tyTakeover

/-- R338: what an upstream end may send now. -/
def maySendDown (s : State) (x : Parcel) : Bool := s.pwr.mode != .watch || watchSends x.typ

/-- R315: the waiting parcel of the best rank, the first to arrive among equals. -/
def nextDown (l : List Parcel) : Option Parcel :=
  l.foldl (fun a x => match a with
    | none => some x
    | some y => if downRank x.typ < downRank y.typ then some x else some y) none

/-- A downward parcel goes out, and its GRANT is owed (R304). -/
def sendDown (s : State) (k : Nat) (x : Parcel) : State := setLine (setPort s k (fun q => { q with owed := true })) [.parcel k x]

/-- DOWNWARD_PARCEL_SEND (R304, R315, R338). While a GRANT is owed, only the BEAT that is due may start. -/
def execDownwardParcelSend (port : Fin 6) (s : State) : Res :=
  .next (
    let k := port.val
    let p := getPort s k
    if !(linkRuns s) || !(downlinkOn s k) || p.window || !(p.st == .train || p.st == .up) then s
    else if p.beatDue then sendDown (setPort s k (fun q => { q with beatDue := false })) k (beatParcel s k)
    else if p.st == .train || p.owed then s
    else match resendDue p (maySendDown s) with
      | some x => sendDown (resend s k x) k x
      | none =>
        match nextDown (p.down.filter (maySendDown s)) with
        | none => s
        | some x =>
          if seqRoom p then
            (let r := sendNew (setPort s k (fun q => { q with down := q.down.erase x })) k x
             bcastSent (sendDown r.1 k r.2))
          else s)

/-- WINDOW_LOST (R305). -/
def execWindowLost (port : Fin 6) (s : State) : Res :=
  .next (
    let k := port.val
    let p := getPort s k
    if !p.window then s
    else
      (let s1 := setPort s k (fun p => { p with window := false, lost := p.lost + 1 })
       if p.lost + 1 < 8 then s1
       else match p.st with
         | .up => portDown s1 k
         | .train => trainDown s1 k
         | _ => s1))

/-- COLLISION (R306). -/
def execCollision (port : Fin 6) (s : State) : Res :=
  .next (
    let k := port.val
    if !(linkRuns s) || (getPort s k).st == .fenced then s
    else
      (let s1 := setPort s k (fun p => { p with
         window := false
         unacked := p.unacked.map (fun u => { u with again := true })
         alerts := p.sentAlerts.filter (fun a => !(p.alerts.any (fun o => o.src == a.src))) ++ p.alerts
         sentAlerts := [] })
       { s1 with lnk := { s1.lnk with collcnt := satInc s1.lnk.collcnt } }))

/-- R318, R338: how long a downstream port may go without a GRANT, in ns. -/
def grantLimit (s : State) : Nat := if s.pwr.mode = .watch ∨ (s.lnk.tmval ∧ s.lnk.tmode = 1) then 1000000 else 100000

/-- GRANT_TIMEOUT (R318). -/
def execGrantTimeout (port : Fin 6) (ns : Nat) (s : State) : Res :=
  .next (
    let k := port.val
    if !(isUplink s k) || decide (ns < grantLimit s) then s
    else match (getPort s k).st with
      | .up => portDown s k
      | .train => trainDown s k
      | _ => s)

/-- LINK_PORT_FENCE (R313, R317). -/
def execLinkPortFence (port : Fin 6) (why : LinkCause) (s : State) : Res :=
  .next (match why with
    | .resends => if spent (getPort s port) then fencePort s port 0 else s
    | .train => if 8 ≤ (getPort s port).tries then fencePort s port 1 else s)

/-! ### Enumeration (R321 to R325) -/

/-- Element i of a route string. -/
def routeElem (rt i : Nat) : Nat := rt / 8 ^ i % 8

def bootCode : Boot → Nat
  | .reset => 0 | .clocks => 1 | .load => 2 | .hostload => 3 | .tree => 4 | .run => 5 | .strapflt => 6 | .bootflt => 7

/-- R310: this worker's HELLO, with the address it holds. -/
def helloParcel (s : State) (sideB : Bool) : Parcel :=
  let w := s.lnk.addr.toNat + 512 * roleCode s.pwr.role + 2048 * bootCode s.pwr.boot
  mkParcel s tyHello (if sideB then 0x1F1 else 0x1F0) 0
    (List.replicate 6 0 ++ be16 (w16 w) ++ be16 0x5E48 ++ be16 0x0201 ++ List.replicate 4 0)

/-- R322: a HELLO without an address goes up L0. -/
def helloOut (s : State) : State :=
  let s1 := putUp s 0 (helloParcel s false)
  { s1 with lnk := { s1.lnk with helloSent := true } }

/-- HELLO_SEND (R322): `sinceNs` after the first GRANT on L0. -/
def execHelloSend (sinceNs : Nat) (s : State) : Res :=
  .next (match (getPort s 0).granted with
    | none => s
    | some p => if isWorker s && linkRuns s && s.lnk.addr == 0 && !s.lnk.helloSent && decide (5000 * p.toNat ≤ sinceNs) then helloOut s else s)

/-- HELLO_RETRY (R322): no ENUM within 2 ms. -/
def execHelloRetry (s : State) : Res :=
  .next (if isWorker s && linkRuns s && s.lnk.addr == 0 && s.lnk.helloSent then helloOut s else s)

/-- R324: the confirming HELLO, on every UP uplink. -/
def confirm (s : State) : State :=
  [0, 1].foldl (fun s k => if isUplink s k && (getPort s k).st == .up then putUp s k (helloParcel s (k == 1)) else s) s

/-- R310: fields of a HELLO and an ENUM. -/
def payRoute (p : Parcel) : Nat := beAt p.payload 0 5 % 2 ^ 36
def payHops (p : Parcel) : Nat := (byteAt p.payload 5).toNat
def payAddr (p : Parcel) : BitVec 9 := BitVec.ofNat 9 (beAt p.payload 6 2)

/-- R322: a HELLO with its route and hops replaced. -/
def withRoute (p : Parcel) (rt hops : Nat) : Parcel :=
  { p with payload := ((be32 (BitVec.ofNat 32 (rt / 2 ^ 32))).drop 3 ++ be32 (BitVec.ofNat 32 rt) ++ [BitVec.ofNat 8 hops]) ++ p.payload.drop 6 }

/-- R321: how a port is written in a route string. -/
def writtenPort (s : State) (k : Nat) : Nat := if sideOf s k then k - 1 else k

/-- R322, R324: a worker forwards a HELLO, and learns where an addressed one came from. -/
def helloForward (s : State) (k : Nat) (p : Parcel) : State :=
  let d := s.lnk.depth
  let rt := payRoute p + writtenPort s k * 8 ^ d
  let hops := if payHops p = 0 then d + 1 else payHops p
  let s1 := if payAddr p = 0 then s else addRoute s (sideOf s k) (payAddr p) k (payHops p == 0)
  forwardUp s1 k (withRoute p rt hops)

/-- R340: the ROUTETAB entry of an address: route, hops, VALID. -/
def rtRoute (s : State) (a : Nat) : Nat :=
  (reg s (0x7000 + 4 * a)).toNat + 65536 * (reg s (0x7001 + 4 * a)).toNat + 2 ^ 32 * rf (reg s) (0x7002 + 4 * a) 0 4
def rtHops (s : State) (a : Nat) : Nat := rf (reg s) (0x7002 + 4 * a) 4 4
def rtValid (s : State) (a : Nat) : Bool := rbit (reg s) (0x7002 + 4 * a) 15

def rtWrite (s : State) (a rt hops : Nat) : State :=
  setBoth (setBoth (setBoth s (0x7000 + 4 * a) (w16 rt)) (0x7001 + 4 * a) (w16 (rt / 65536)))
    (0x7002 + 4 * a) (w16 (rt / 2 ^ 32 % 16 + 16 * (hops % 16) + 0x8000))

/-- R323: the address for a route. -/
def assign (s : State) (rt hops : Nat) : Option Nat :=
  match (List.range 512).find? (fun a => rtValid s a && rtRoute s a == rt && rtHops s a == hops) with
  | some a => some a
  | none => ((List.range 0x18E).map (fun a => a + 1)).find? (fun a => !(rtValid s a))

/-- R309, R323: the ENUM of an assignment. -/
def enumParcel (s : State) (rt hops : Nat) (a : Nat) : Parcel :=
  mkParcel s tyEnum 0 0 ((be32 (BitVec.ofNat 32 (rt / 2 ^ 32))).drop 3 ++ be32 (BitVec.ofNat 32 rt) ++ [BitVec.ofNat 8 hops] ++ be16 (w16 a))

/-- R323, R324: the ringmaster handles a HELLO without an address. -/
def helloAssign (s : State) (rt hops : Nat) : State :=
  match assign s rt hops with
  | none => logEv s 0x17 0 0
  | some a => putDown (rtWrite s a rt hops) (routeElem rt 0) (enumParcel s rt hops a)

/-! ### Images over the tree (R327, R361) -/

/-- R327, R361: the image that the ringmaster sends: staged in Granary until it enters RUN, and what it keeps of it then (log 116). -/
def imageSent (s : State) : List Byte := if inRun s then s.lnk.img else imgBytes s 0 s.lnk.imgLen

/-- R327: the BOOTIMG parcels of the image. -/
def imageParcels (s : State) (dst : BitVec 9) : List Parcel :=
  let img := imageSent s
  (List.range (ceilDiv img.length 208)).map (fun i =>
    mkParcel s tyBootimg dst 0 (be32 (BitVec.ofNat 32 (208 * i)) ++ be32 (BitVec.ofNat 32 img.length) ++ (img.drop (208 * i)).take 208))

def sendImage (s : State) (ks : List Nat) (dst : BitVec 9) : State :=
  (imageParcels s dst).foldl (fun s p => putDownAll s ks p) s

/-- R361: the image is sent again to a device whose check failed, at most three times; then BOOTFAIL. -/
def resendImage (s : State) (a : BitVec 9) : State :=
  match s.lnk.members.find? (fun m => m.addr == a) with
  | none => s
  | some m =>
    if m.resent < 3 then
      (let s1 := { s with lnk := { s.lnk with members := s.lnk.members.map (fun x => if x.addr = a then { x with resent := x.resent + 1 } else x) } }
       sendImage s1 [m.port] a)
    else logEv s 0x1C 0 (w16 a.toNat)

/-- R310, R327, R361: what the ringmaster does with a confirming HELLO; it sends an image only when that has BCAST = 1. A device in LOAD that is enumerated after the broadcast began gets the
image at its own address; one that boots from elsewhere ignores it. -/
def helloConfirm (s : State) (p : Parcel) (rt hops k : Nat) : State :=
  let a := payAddr p
  let boot := beAt p.payload 6 2 / 2048 % 8
  let s1 := treeCount (addMember s a hops k)
  if !s.lnk.ring then rtWrite s1 a.toNat rt hops
  else if !s.pwr.imgBcast then s1
  else if boot = 7 then resendImage s1 a
  else if (s.lnk.enumerated || inRun s) && boot == 2 then sendImage s1 [k] a
  else s1

/-- R322, R323: a HELLO at a manager's port k. -/
def helloManager (s : State) (k : Nat) (p : Parcel) : State :=
  let hops := if payHops p = 0 then 1 else payHops p
  let rt := payRoute p / 8 * 8 + k
  if payAddr p = 0 then (if s.lnk.ring then helloAssign s rt hops else s)
  else helloConfirm s p rt hops k

/-- HELLO_RX (R322 to R324). -/
def execHelloRx (port : Fin 6) (x : RxParcel) (s : State) : Res :=
  .next (receive s port x tyHello (fun s =>
    if isManager s then helloManager s port x.p else if isUplink s port then s else helloForward s port x.p))

/-- R324, R356: the device takes its address; a loaded worker enters RUN. -/
def takeAddress (s : State) (a : BitVec 9) (hops : Nat) : State :=
  let s1 := confirm { s with lnk := { s.lnk with addr := a, depth := hops } }
  if s1.pwr.loaded && (s1.pwr.boot == .load || s1.pwr.boot == .hostload) then enterRun s1 else s1

/-- ENUM_RX (R324). -/
def execEnumRx (port : Fin 6) (x : RxParcel) (s : State) : Res :=
  .next (receive s port x tyEnum (fun s =>
    if !(isUplink s port) then s
    else if s.lnk.addr = 0 then takeAddress (mgrLearn s port x.p.src) (payAddr x.p) (payHops x.p)
    else if s.lnk.depth < payHops x.p then putDown s (routeElem (payRoute x.p) s.lnk.depth + b2n (port.val == 1)) x.p
    else s))

/-- R327: the downlinks that forward a BOOTIMG that comes in at port k. -/
def imageDownlinks (s : State) (k : Nat) (p : Parcel) : List Nat :=
  if p.dst = 0x1FF then upDownlinks s (k == 1) else if p.dst = ownAddr s then [] else (routeOf s (k == 1) p.dst).toList

/-- R327: each of those downlinks has room; a slower one holds back the device. How many BOOTIMG parcels wait at a downlink besides the one
that comes in is the implementation's (log 128). -/
def imageRoom (s : State) (k : Nat) (p : Parcel) : Bool :=
  (imageDownlinks s k p).all (fun d => decide (((getPort s d).down.filter (fun x => x.typ == tyBootimg)).length ≤ Config.imageWait))

/-- R361: a link-booting worker stages a payload, in ascending offset, and checks the image once bytes 0 to LENGTH - 1 have come. Offset 0
begins an image, and takes a device in BOOTFLT back to LOAD. -/
def imageTake (s : State) (p : Parcel) : State :=
  let off := beAt p.payload 0 4
  let data := p.payload.drop 8
  let s1 := if off = 0 then { s with lnk := { s.lnk with imgGot := 0 } } else s
  let s0 := if s1.pwr.boot = .bootflt ∧ off = 0 then { s1 with pwr := { s1.pwr with boot := .load } } else s1
  if s0.pwr.boot != .load || s0.pwr.loaded || off != s0.lnk.imgGot || decide (1048576 < off + data.length) then s0
  else
    (let s1 := wrMem { s0 with lnk := { s0.lnk with imgGot := off + data.length } } (granBase + off) data
     if linkImageIn s1 then
       (let s2 := loadCheck s1
        if s2.pwr.boot = .bootflt ∧ s2.lnk.addr ≠ 0 then confirm s2 else s2)
     else s1)

/-- BOOTIMG_RX (R311, R327, R361). -/
def execBootimgRx (port : Fin 6) (x : RxParcel) (s : State) : Res :=
  .next (receiveRoom s port x tyBootimg (imageRoom s port x.p) (fun s =>
    if !(isUplink s port) then s
    else
      (let s1 := forwardDown s port x.p
       if forMe s x.p && s.pwr.bootSrc == 0 then imageTake s1 x.p else s1)))

/-- ENUM_COMPLETE (R325, R356): TREECNT takes its values; the ringmaster in TREE broadcasts, or enters RUN. -/
def execEnumComplete (s : State) : Res :=
  .next (
    if !(isManager s) || s.lnk.ports.any (fun p => p.st == .train) || !(s.pwr.boot == .tree || inRun s) then s
    else
      (let s1 := treeCount { s with lnk := { s.lnk with enumerated := true } }
       if !s1.lnk.ring || s1.pwr.boot != .tree then s1
       else if s1.pwr.imgBcast && !(upPorts s1).isEmpty then sendImage s1 (upPorts s1) 0x1FF
       else enterRun s1))

/-- R356: BOOTIMG parcels of the broadcast still wait. -/
def imageWaits (s : State) : Bool := s.lnk.ports.any (fun p => p.down.any (fun x => x.typ == tyBootimg))

/-- BROADCAST_COMPLETE (R356). -/
def execBroadcastComplete (s : State) : Res :=
  .next (
    if s.lnk.ring && s.pwr.boot == .tree && s.lnk.enumerated && !(imageWaits s) then
      enterRun { s with lnk := { s.lnk with bcastDone := true } }
    else s)

/-! ### Two managers (R16, R333 to R336) -/

/-- R310, R333: this manager's HEARTBEAT. -/
def heartbeatParcel (s : State) : Parcel :=
  mkParcel s tyHeartbeat (peerAddr s) 0
    (be32 s.beat.no ++ [BitVec.ofNat 8 (b2n s.lnk.ring + 2 * b2n (selfFault s)), 0] ++ be16 (w16 s.lnk.treecnt.toNat))

/-- R273, R335, R356: the manager is the standby from now on, counts missed beats from here (R333, log 129), and shows DONE where it has applied its
latest fence; in TREE it enters RUN at once. -/
def toStandby (s : State) : State :=
  let s0 := { s with lnk := { s.lnk with ring := false, stby := true, standbyDue := false, miss := 0 }, beat := { s.beat with pend := 0 } }
  let s1 := if s.beat.fenceWait.isNone then fenceDone s0 else s0
  if s1.pwr.boot = .tree then enterRun s1 else s1

/-- R16, R334, R335: what a manager does with its peer's HEARTBEAT. -/
def heartbeatPeer (s : State) (p : Parcel) : State :=
  let f := byteAt p.payload 4
  let ring := bit f 0
  let flt := bit f 1
  let s1 := treeCount (addMember { s with lnk := { s.lnk with peer := true, peerflt := flt, peerring := ring, sincePeer := 0, hbSeen := true
                                                              heard := s.lnk.heard || ring, miss := if ring || !s.lnk.stby then 0 else s.lnk.miss } } p.src 0 6)
  if !ring then s1
  else if s.lnk.service ≤ 3 ∧ ¬ s.lnk.stby then toStandby s1
  else if s.lnk.stby then { s1 with lnk := { s1.lnk with takeoverDue := s1.lnk.takeoverDue || flt } }
  else if s.lnk.ring ∧ (if s.pwr.role = .managerB then ¬ flt else selfFault s) then { s1 with lnk := { s1.lnk with standbyDue := true } }
  else s1

/-- HEARTBEAT_RX (R312, R333 to R336). -/
def execHeartbeatRx (port : Fin 6) (x : RxParcel) (s : State) : Res :=
  .next (receive s port x tyHeartbeat (fun s =>
    let no := BitVec.ofNat 32 (beAt x.p.payload 0 4)
    if isWorker s then (if isUplink s port then forwardRelay s port x.p else s)
    else if x.p.src = ownAddr s then { s with lnk := { s.lnk with strapDue := true } }
    else if isCopy s x.p no then s
    else heartbeatPeer (seeCopy s x.p no) x.p))

/-- TAKEOVER_RX (R312, R335, R337, R380). -/
def execTakeoverRx (port : Fin 6) (x : RxParcel) (s : State) : Res :=
  .next (receive s port x tyTakeover (fun s =>
    if isWorker s then (if isUplink s port then ringSide (forwardRelay (mgrLearn s port x.p.src) port x.p) (x.p.src == 0x1F1 && isUplink s 1) else s)
    else if isCopy s x.p 0 || x.p.src == ownAddr s then s
    else
      (let s1 := raise (logEv (seeCopy s x.p 0) 0x1F 1 (w16 x.p.src.toNat)) 12
       if s.lnk.ring then { s1 with lnk := { s1.lnk with standbyDue := true } } else s1)))

/-- R334: the manager becomes the ringmaster. -/
def takeOver (s : State) : State :=
  let s1 := { s with
    lnk := { s.lnk with ring := true, stby := false, tkcnt := satInc s.lnk.tkcnt, takeoverDue := false, standbyDue := false }
    beat := { s.beat with pend := 0, lost := false, following := false, ballRun := 0 } }
  let s2 := raise (logEv (fenceDone s1) 0x1F 0 (w16 (peerAddr s).toNat)) 12
  putDownAll s2 (upPorts s2) (mkParcel s2 tyTakeover 0x1FF 0 (be32 s2.beat.no))

/-- R334: the standby takes over at this beat boundary. -/
def takeoverReady (s : State) : Bool :=
  s.lnk.stby && !(selfFault s) && (decide (3 ≤ s.lnk.miss.toNat) || s.lnk.takeoverDue)

/-- TAKEOVER (R334). -/
def execTakeover (s : State) : Res := .next (if takeoverReady s then takeOver s else s)

/-- R16: manager B's first three beats of link service have passed, and it has no part yet; `service` counts their starts, so that the fourth
ends the third (log 53). -/
def startupOver (s : State) : Bool :=
  s.pwr.role == .managerB && !s.lnk.ring && !s.lnk.stby && (s.pwr.boot == .tree || inRun s) && decide (4 ≤ s.lnk.service)

/-- R16: no HEARTBEAT has come: manager B takes over. -/
def startupReady (s : State) : Bool := startupOver s && !s.lnk.hbSeen

/-- R16: HEARTBEATs have come, none from a ringmaster: manager B is the standby (log 53). -/
def standbyReady (s : State) : Bool := startupOver s && s.lnk.hbSeen

/-- STARTUP_TAKEOVER (R16). -/
def execStartupTakeover (s : State) : Res := .next (if startupReady s then takeOver s else s)

/-- BECOME_STANDBY (R335). -/
def execBecomeStandby (s : State) : Res := .next (if s.lnk.standbyDue then raise (toStandby s) 12 else s)

/-- R336: permits OFF, links silent, STRAPFLT. -/
def strapStop (s : State) : State :=
  let s1 := permitsOff s
  let s2 := [0, 1, 2, 3, 4, 5].foldl (fun s k => if (getPort s k).st = .fenced then s else portSt (portQuiet s k) k .down) s1
  { s2 with pwr := { s2.pwr with boot := .strapflt }, lnk := { s2.lnk with strapDue := false, ring := false, stby := false, line := [] }
            beat := { s2.beat with running := false }, car := { s2.car with run := none } }

/-- STRAP_CONFLICT (R336). -/
def execStrapConflict (s : State) : Res := .next (if s.lnk.strapDue then strapStop s else s)

end Sys2Proof.Machine
end

