-- ==== Sys2Proof/Machine/Contain.lean ====
section
/-! DEFINITION. Unfencing and repair tests (R365 to R369), the scrubber (R377) and the event log's reads (R378). -/
namespace Sys2Proof.Machine

/-! ### Units (R365, R368) -/

/-- The unit in UNFSEL. -/
def selUnit (s : State) : UnitId := ⟨BitVec.ofNat 4 (rf (reg s) 0x1700 0 4), BitVec.ofNat 8 (rf (reg s) 0x1700 4 8)⟩

def unitExists (u : UnitId) : Bool :=
  let i := u.idx.toNat
  match u.cls.toNat with
  | 1 => decide (i < 4)
  | 2 => decide (i < 128)
  | 3 => true
  | 4 => decide (i < 4)
  | 5 => decide (i < 16)
  | 6 => i == 0
  | 7 => decide (i < 16)
  | 8 => decide (i < 6)
  | 9 => decide (i < 32)
  | _ => false

/-- R365: the unit is fenced. -/
def isFenced (s : State) (u : UnitId) : Bool :=
  let i := u.idx.toNat
  unitExists u &&
  (match u.cls.toNat with
   | 1 => bit s.aux.adcFen i
   | 2 => bit s.ana.ampFen i
   | 3 => bit s.ana.elFen i
   | 4 => bit s.ana.shdFen i
   | 5 => bit s.mem.granFen i
   | 6 => s.cpu.fen
   | 7 => (getPass s i).pipeFen
   | 8 => (getPort s i).st == .fenced
   | 9 => (getZone s i).fen
   | _ => false)

/-! ### Commands (R367, R381) -/

/-- R367: TEST begins. -/
def testBegin (s : State) : State :=
  if !(inRun s) || s.pwr.mode != .scan || !(unitExists (selUnit s)) then refuse s
  else { s with flt := { s.flt with busy := true, res := 0, tested := some (selUnit s), ok := false, stale := false, frames := 0, good := true, gap := none } }

/-- R367: UNFENCE is scheduled for the next frame boundary, or refused. An amplifier keeps the trim that its test formed (R369). -/
def unfenceAsk (s : State) : State :=
  if !(inRun s) || s.pwr.mode != .scan || !(isFenced s (selUnit s)) || s.flt.tested != some (selUnit s) || !s.flt.ok || s.flt.stale then refuse s
  else { s with flt := { s.flt with pending := s.flt.pending.filter (fun x => x.1 != selUnit s) ++ [(selUnit s, s.flt.tau)] } }

/-- R367: a write of UNFCMD. -/
def unfcmdWrite (s : State) (w : W16) : State :=
  let cmd := fld w 0 2
  if !(unfKeyed w) then s
  else if s.flt.busy then { s with flt := { s.flt with ign := true } }
  else if cmd = 1 then testBegin s else unfenceAsk s

/-- UNFENCE_TEST (R367): an UNFCMD write. -/
def execUnfenceTest (w : W16) (s : State) : Res := .next (cfgWrites s (fun s => unfcmdWrite s w))

/-- UNFENCE_COMMAND (R367): an UNFCMD write. -/
def execUnfenceCommand (w : W16) (s : State) : Res := .next (cfgWrites s (fun s => unfcmdWrite s w))

/-! ### Repair tests (R368) -/

/-- The test ends with an outcome. -/
def testEnd (s : State) (pass : Bool) : State :=
  { s with flt := { s.flt with busy := false, ok := pass, res := if pass then 1 else 2 } }

/-- R368: the present frame has a gap of at least n clocks that the test has not yet used. -/
def testGap (s : State) (n : Nat) : Bool := gapWork s && frameRan s && decide (n ≤ gapClocks s) && s.flt.gap != some s.beat.no

/-- R368: the test has used a gap, in which it passed or not, for the sub-steps given; the second one ends it. -/
def gapJudged (s : State) (subs : List Sub) (upTo n : Nat) (good : Bool) : State :=
  let s1 := subsNote (gapUsed s upTo) subs
  let s2 := { s1 with flt := { s1.flt with frames := s1.flt.frames + n, good := s1.flt.good && good, gap := some s1.beat.no } }
  if 2 ≤ s2.flt.frames then testEnd s2 s2.flt.good else s2

/-- R368 class 2: calibrations of the amplifier, the last of them in the present gap, where quiet windows leave it room (R61); the trim is that of
the second. Of two readings at once, the first comes from a gap that has passed; what a fenced converter read is used for nothing (R156), and such a
gap is failed (log 122). -/
def ampTest (s : State) (i : Nat) (cal : List CalReading) : State :=
  let l := cal.take (2 - s.flt.frames)
  let t0 := (getAmp s i).trim
  let t := calUpTo s s.car.lastEnd 2
  match l.getLast? with
  | none => s
  | some x =>
    if !(testGap s 496) || decide (deadlineAt s < t) then s
    else if bit s.aux.adcFen (i / 32) then gapJudged s (calSubs s s.car.lastEnd 2) t l.length false
    else gapJudged { s with flt := { s.flt with tau := trimFull t0 x } } (calSubs s s.car.lastEnd 2) t l.length (l.all (fun y => (calAssess t0 y).isSome))

/-- R368 class 3: integrity tests of the pin's block, the last of them in the present gap; every verdict on the pin is 0. A gap
that a fenced converter read is failed (R156; log 122). -/
def elTest (s : State) (i : Nat) (els : List ElMeas) : State :=
  let l := els.take (2 - s.flt.frames)
  if l.isEmpty || !(testGap s 1792) then s
  else gapJudged s (elSubs s.car.lastEnd (i / 32) (some i)) (s.car.lastEnd + 1792) l.length
    (!(bit s.aux.adcFen (i / 64)) && l.all (fun m => elVerdict s i m == 0))

/-- R368 class 6: single-bit errors in program and data RAM are corrected; no word may be uncorrectable. -/
def ramTest (s : State) : State :=
  let ram := fun (w : Nat) => decide (4 * w < 0x40000) || (decide (dataBase ≤ 4 * w) && decide (4 * w < dataBase + 0x20000))
  let n := (s.mem.soft.filter ram).length
  let s1 := { s with mem := { s.mem with soft := s.mem.soft.filter (fun w => !(ram w)) }, flt := { s.flt with errcnt0 := satAdd s.flt.errcnt0 n } }
  testEnd s1 (!(s.mem.bad.any ram))

/-- R368 class 7: the pass exists and no bank of its area is fenced. -/
def pipeTest (s : State) (p : Nat) : Bool :=
  (passList (reg s) (actProg s)).contains p && (List.range 16).all (fun k => !(bit s.mem.granFen k && inBank (reg s) (actProg s) p k))

/-- R368: the test of a unit ends; a shield driver's at the boundary that ends its 64th frame. `good` is what only the outside can know: that
every word of a bank read back as written (class 5), or that the TRAIN sequence reached UP (class 8). -/
def testJudge (s : State) (u : UnitId) (cal : List CalReading) (els : List ElMeas) (good : Bool) : State :=
  let i := u.idx.toNat
  match u.cls.toNat with
  | 1 => if 64 ≤ s.flt.frames then testEnd s s.flt.good else s
  | 2 => ampTest s i cal
  | 3 => elTest s i els
  | 4 => if 64 < s.flt.frames then testEnd s s.flt.good else s
  | 5 => testEnd (clearMem s (granBase + 65536 * i) (granBase + 65536 * (i + 1))) good
  | 6 => ramTest s
  | 7 => testEnd s (pipeTest s i)
  | 8 => testEnd s good
  | 9 => testEnd s (!(s.zon.bad.any (fun w => w / 1024 == i)))
  | _ => s

/-- REPAIR_TEST_DONE (R368). -/
def execRepairTestDone (cal : List CalReading) (els : List ElMeas) (good : Bool) (s : State) : Res :=
  .next (match s.flt.tested with
    | none => s
    | some u => if s.flt.busy then testJudge s u cal els good else s)

/-! ### Unfencing (R369) -/

/-- The pass uses the unit of class 1 to 4. -/
def passUses (s : State) (u : UnitId) (p : Nat) : Bool :=
  let r := reg s
  let b := actProg s
  let i := u.idx.toNat
  match u.cls.toNat with
  | 1 => (rxPins r b p).any (fun e => adcOfPin e == i)
  | 2 => (rxPins r b p).any (fun e => ampOfPin r e == i)
  | 3 => roleOf r b p i != 0
  | 4 => isSelf r b p && rbit r 0x100 (4 + i)
  | _ => false

/-- Node (t, c) of a pass uses the unit. -/
def nodeUses (s : State) (u : UnitId) (p t c : Nat) : Bool :=
  let r := reg s
  let b := actProg s
  let i := u.idx.toNat
  let pin := (rxPins r b p).getD c 0
  match u.cls.toNat with
  | 1 => adcOfPin pin == i
  | 2 => ampOfPin r pin == i
  | 3 => pin == i || (isMutual r b p && (txPins r b p).getD t 0 == i)
  | 4 => isSelf r b p && rbit r 0x100 (4 + i)
  | _ => false

/-- The zone has a node of the unit. -/
def zoneUsesUnit (s : State) (u : UnitId) (z : Nat) : Bool :=
  let k := zoneKind (reg s) z
  let p := zonePass (reg s) z
  let c := max 1 (colCount (reg s) (actProg s) p)
  (k == 1 || k == 3) && (zoneNodes s z).any (fun i => nodeUses s u p (i / c) (i % c))

/-- R369: the passes that use the unit are reseated and the zones with a node of it seated anew. -/
def seatUsers (s : State) (u : UnitId) : State :=
  let s1 := ((passList (reg s) (actProg s)).filter (passUses s u)).foldl reseatPass s
  let s2 := { s1 with car := { s1.car with passes := s1.car.passes.mapIdx (fun p x => if x.nodes.isEmpty then x else markFen s1 p x) } }
  ((List.range 32).filter (zoneUsesUnit s2 u)).foldl seatZone s2

/-- R369: the unit's fence ends; `tau` is the trim that an amplifier's test formed. -/
def unfence (s : State) (u : UnitId) (tau : Int) : State :=
  let i := u.idx.toNat
  match u.cls.toNat with
  | 1 => effUpdate (seatUsers { s with aux := { s.aux with adcFen := putBit s.aux.adcFen i false } } u)
  | 2 =>
    let s1 := setAmp { s with ana := { s.ana with ampFen := putBit s.ana.ampFen i false } } i
      (fun a => { a with trim := tau, wait := none, done := true, fails := 0, due := false })
    seatUsers s1 u
  | 3 =>
    seatUsers { s with ana := { s.ana with
      elFen := putBit s.ana.elFen i false, verdict := upd s.ana.verdict i (fun _ => 0), earlier := upd s.ana.earlier i (fun _ => 0) } } u
  | 4 => seatUsers { s with ana := { s.ana with shdFen := putBit s.ana.shdFen i false } } u
  | 5 => { s with mem := { s.mem with granFen := putBit s.mem.granFen i false } }
  | 6 => { s with cpu := { s.cpu with fen := false, st := .halted } }
  | 7 => reseatPass (setPass s i (fun x => { x with pipeFen := false, failFrames := 0 })) i
  | 8 => portSt (setPort s i (fun p => { p with downs := [], tries := 0 })) i .down
  | 9 => seatZone (setZone s i (fun z => { z with fen := false })) i
  | _ => s

/-- R369: a unit that is scheduled is unfenced, with its entry. -/
def unfenceOne (s : State) (x : UnitId × Int) : State := logEv (unfence s x.1 x.2) 0x1D x.1.cls.toNat (w16 x.1.idx.toNat)

/-- R367, R369: every unit that is scheduled is unfenced. -/
def unfenceDue (s : State) : State := s.flt.pending.foldl unfenceOne { s with flt := { s.flt with pending := [] } }

/-- UNFENCE_APPLY (R369): at the frame boundary, and at no other time. -/
def execUnfenceApply (s : State) : Res := .next (if atBoundary s then logOrder (unfenceDue s) s.flt.logcount else s)

/-! ### The scrubber (R377) -/

/-- A word of memory found uncorrectable by the scrubber. -/
def scrubBad (s : State) (w : Nat) : State :=
  let s1 := { s with mem := { s.mem with bad := if s.mem.bad.contains w then s.mem.bad else s.mem.bad ++ [w], soft := s.mem.soft.filter (fun x => x != w) } }
  if granBase ≤ 4 * w ∧ 4 * w < granBase + 0x100000 then bankFence s1 ((4 * w - granBase) / 65536)
  else logEv s1 0x14 (b2n (decide (dataBase ≤ 4 * w))) (w16 w)

/-- Carud memory at an address. -/
def isMem (a : Nat) : Bool :=
  decide (a < 0x40000) || (decide (dataBase ≤ a) && decide (a < dataBase + 0x20000)) || (decide (granBase ≤ a) && decide (a < granBase + 0x100000))

/-- The scrubber reads a word of a CORE memory. -/
def scrubMem (s : State) (a : Nat) (found : Upset) : State :=
  let w := a / 4
  if !(coreRuns s) || !(isMem a) then s
  else if found = .double ∨ s.mem.bad.contains w then scrubBad s w
  else if found = .single ∨ s.mem.soft.contains w then
    countSoft { s with mem := { s.mem with soft := s.mem.soft.filter (fun x => x != w) } }
  else s

/-- The scrubber reads a word of the zone SRAM. -/
def scrubZone (s : State) (w : Nat) (found : Upset) : State :=
  if !(senseRuns s) then s
  else if found = .double ∨ s.zon.bad.contains w then zoneWordFault s w
  else if found = .single then countSoft s
  else s

/-- SCRUB_ACCESS (R377). -/
def execScrubAccess (t : ScrubTarget) (found : Upset) (s : State) : Res :=
  .next (match t with
    | .mem a => scrubMem s a.toNat found
    | .zone w => scrubZone s w.toNat found)

/-! ### The event log (R378, R379) -/

/-- R379: word i of slot e. -/
def logWord (s : State) (slot i : Nat) : W16 :=
  match s.flt.log.getD slot none with
  | none => 0
  | some e =>
    match i with
    | 0 => w16 (e.kind.toNat + 256 * e.unit.toNat)
    | 1 => e.detail
    | 2 => w16 e.beat.toNat
    | 3 => w16 (e.beat.toNat / 65536)
    | 4 => e.phase
    | 5 => e.frameSeq
    | 6 => e.seq
    | _ => w16 e.epoch.toNat

/-- R378: word 7 of an entry has been read. -/
def logRead (s : State) (slot : Nat) : State :=
  { s with flt := { s.flt with log := upd s.flt.log slot (fun o => o.map (fun e => { e with read := true })) } }

/-- LOG_ENTRY_READ (R276, R378): word 7 of the entry is read by the host or by Carud. -/
def execLogEntryRead (slot : BitVec 6) (s : State) : Res := .next (if spaceOpen s then logRead s slot.toNat else s)

end Sys2Proof.Machine
end

