-- ==== Sys2Proof/Machine/Beat.lean ====
section
/-! DEFINITION. The beat (R24 to R27, R363), what happens at a beat and at a frame boundary, fences and staged configuration (R29 to R34, R273). -/
namespace Sys2Proof.Machine

/-! ### The end of a frame (R86, R98, R103) -/

/-- R103, R104: what the pipeline still holds of the ending frame is processed on; its group status stays with it. -/
def pipeLate (s : State) (p : Nat) : State :=
  let s1 := pipeRows s p
  match (getPass s1 p).pipe with
  | some f =>
    if f.late then s1
    else setPass s1 p (fun x => { x with pipe := some { f with stale := x.stale, noisy := x.noisy, skip := x.skip, zstale := x.zstale, failed := x.failRows, cand := x.cand, refStale := refStaleNow s1 p, peak := peakWaits s1 p, late := true } })
  | none => if canFinish s1 p then finishPass s1 p else s1

/-- The frame in progress ends. -/
def frameEnd (s : State) : State :=
  if s.beat.running then
    (let s1 := staleRest s (min s.beat.clk (deadlineAt s))
     hopFrame ((passList (reg s1) (actProg s1)).foldl pipeLate s1))
  else s

/-! ### Staged configuration at a boundary (R30, R31, R166) -/

/-- R31, R380: the entries of every check that fails, over the staged configuration. -/
def stagedFaults (s : State) : List (Nat × Nat × W16) :=
  let r := stg s
  let sel := rf r 0x500 0 1
  [0, 1].flatMap (fun b => (badPasses r b).map (fun p => (0x01, b, w16 p)))
    ++ ((List.range 32).filter (badZone r sel)).map (fun z => (0x01, 2, w16 (0x100 + z)))
    ++ (if badRing r then [(0x01, 3, 0x1508)] else [])

/-- Keys of AUX words whose new value waits for a loop boundary (R166). -/
def loopKeys (s : State) : List Nat :=
  let ks := ((s.regs.staged ++ s.regs.force ++ s.regs.auxWait).map (fun e => e.1)).eraseDups
  ks.filter (fun k => takesForce k == .loop && (stg s k != reg s k || s.regs.auxWait.any (fun e => e.1 == k)))

/-- R30: every staged word whose fields take force at a fence does so; AUX words join those that wait for the loop boundary. -/
def forceStaged (s : State) : State :=
  let atFence := fun (e : Nat × W16) => takesForce e.1 == .fence
  { s with regs := { s.regs with
      force := (s.regs.staged.filter atFence).foldl (fun m e => sset regReset m e.1 e.2) (s.regs.force.filter (fun e => !(atFence e)))
      auxWait := s.regs.auxWait ++ (loopKeys s).map (fun k => (k, stg s k)) } }

/-- R185: a field of the zone has changed, or its pass has another TYPE, T or R than before. -/
def zoneMoved (old new : Reader) (b0 b1 z : Nat) : Bool :=
  let p := zonePass new z
  let k := zoneKind new z
  (List.range 9).any (fun w => old (zoneKey z w) != new (zoneKey z w))
  || ((k == 1 || k == 3) && (passType old b0 p != passType new b1 p || rowCount old b0 p != rowCount new b1 p || colCount old b0 p != colCount new b1 p))

/-- R340: ports whose enable bit is 0 go DOWN. -/
def portsDisable (s : State) : State :=
  [0, 1, 2, 3, 4, 5].foldl (fun s k =>
    if portEnabled s k then s else portDown s k) s

/-- R72: a program takes force: SEL names the other one, a word of the one in force has changed, or this is the first boundary after
boot (log 7). -/
def programMoves (s : State) (old : Reader) (b0 : Nat) : Bool :=
  let b1 := rf (reg s) 0x500 0 1
  s.beat.first || b0 != b1 || programWords old b0 != programWords (reg s) b1

/-- R89: a source whose EN is 0 is not timed; once it is enabled again its first edge begins an interval, and it
needs three (log 14). -/
def synsDisable (s : State) : State :=
  { s with car := { s.car with syn := s.car.syn.mapIdx (fun k x => if rbit (reg s) (0x510 + k) 0 then x else { x with valid := false, count := 0, seen := false }) } }

/-- R363: with SRC = 0 the BEAT ball is not followed, and qualifies anew once it is the source again. -/
def ballDrop (s : State) : State :=
  if rbit (reg s) 0x1604 0 then s else { s with beat := { s.beat with following := false, ballRun := 0 } }

/-- The staged configuration, which has passed its checks, takes force. A node that it moves onto a fenced unit becomes FEN, and its zones are
seated anew (R42, R185). -/
def applyConfig (s0 : State) : State :=
  let s := auxNow s0
  let old := reg s
  let b0 := actProg s
  let s1 := (passList old b0).foldl (fun s p => if canFinish s p then finishPass s p else s) s
  let s2 := forceStaged s1
  let s3 := cmpEnable old (reg s2) (if seqStopped s2 then seqLoop s2 s2.beat.now else s2)
  let s4 := ballDrop (synsDisable (portsDisable s3))
  let s5 := if programMoves s4 old b0 then programForce s4 old b0 else s4
  let s6 := ((List.range 32).filter (zoneMoved old (reg s5) b0 (actProg s5))).foldl seatZone s5
  permitsCheck (fenceBadZones (refreshFen s6))

/-- R31, R362: the staged configuration is checked; it takes force, or is rejected whole. -/
def boundaryConfig (s : State) : State :=
  let bad := stagedFaults s
  if bad.isEmpty then applyConfig s else raise (logAll s bad) 9

/-- R29, R273: the new epoch is in force, and acknowledged. -/
def epochTake (s : State) (e : Byte) : State :=
  let s1 := { s with
    beat := { s.beat with epoch := e, fenceWait := none }
    cpu := { s.cpu with evt := putBit s.cpu.evt 2 true } }
  sendAck (if s.lnk.ring then s1 else fenceDone s1)

/-- R29: a fence applies at a frame boundary in SCAN. -/
def fenceDue (s : State) : Bool := s.beat.fenceWait.isSome && s.pwr.mode == .scan && inRun s

/-- R29, R31, R62, R362, R369: a frame boundary's epoch, configuration, trims and fences; what it logs and sends carries the new epoch. -/
def boundary (s : State) : State :=
  let fence := fenceDue s
  let s0 := if fence then { s with beat := { s.beat with epoch := s.beat.fenceWait.getD s.beat.epoch } } else s
  let s1 := if fence || s0.beat.first then boundaryConfig s0 else s0
  let s2 := { s1 with beat := { s1.beat with first := false } }
  let s3 := match s2.beat.fenceWait with
    | none => s2
    | some e => if fence then epochTake s2 e else s2
  if fence || trimsDue s3 then applyTrims s3 else s3

/-- FENCE_APPLY (R29, R72): a fence that waits applies at the frame boundary, and at no other time. -/
def execFenceApply (s : State) : Res := .next (if fenceDue s && atBoundary s then logOrder (boundary s) s.flt.logcount else s)

/-- R273: FENCECTL.ISSUE accepted on the ringmaster: the next epoch, its count and its FENCE parcels. -/
def fenceIssue (s : State) : State :=
  let e := curEpoch s + 1
  let s1 := { s with
    beat := { s.beat with fenceWait := some e, done := false }
    lnk := { s.lnk with members := s.lnk.members.map (fun (m : Member) => { m with acked := false }) } }
  let s2 := { s1 with beat := { s1.beat with pend := pendOf s1 } }
  putDownAll s2 (upPorts s2) { mkParcel s2 tyFence 0x1FF 0 [] with epoch := e }

/-- R29, R273: a write of FENCECTL. -/
def fencectlWrite (s : State) (w : W16) : State :=
  if bit w 0 && s.lnk.ring && s.pwr.mode == .scan && inRun s then fenceIssue s else s

/-! ### Once in every beat -/

/-- The fences that fall due at a frame boundary (R63, R69). -/
def fencesDue (s : State) : State :=
  let s1 := (List.range 128).foldl ampFenceDue s
  (List.range 256).foldl elFenceDue s1

/-- R333, R340: no HEARTBEAT has come in the beat that ends: for the standby none from the ringmaster, for any other manager none of its peer. -/
def beatMissed (s : State) : Bool := if s.lnk.stby then !s.lnk.heard else s.lnk.sincePeer != 0

/-- R334, R335, R336, R16: what a manager does at a beat boundary. -/
def managerBeat (s : State) : State :=
  let s1 := if beatMissed s then { s with lnk := { s.lnk with miss := if s.lnk.miss = 3 then 3 else s.lnk.miss + 1 } } else s
  let s2 := if takeoverReady s1 then takeOver s1 else { s1 with lnk := { s1.lnk with takeoverDue := false } }
  let s3 := if s2.lnk.standbyDue then raise (toStandby s2) 12 else s2
  let served := s3.pwr.boot == .tree || inRun s3
  let since := min 3 (s3.lnk.sincePeer + 1)
  let s4 := { s3 with lnk := { s3.lnk with
    sincePeer := since, peer := s3.lnk.peer && decide (since < 3), heard := false
    service := if served then min 4 (s3.lnk.service + 1) else s3.lnk.service } }
  let s5 := if standbyReady s4 then toStandby s4 else s4
  if startupReady s5 then takeOver s5 else s5

/-- R196, R197: the ages of remote entries, and the periodic ALERT. -/
def alertBeat (s : State) : State :=
  let s1 := permitsCheck { s with out := { s.out with
    remotes := s.out.remotes.map (fun r => { r with age := r.age + 1 }), sinceAlert := s.out.sinceAlert + 1 } }
  if isWorker s1 && inRun s1 && decide (8 ≤ s1.out.sinceAlert) then sendAlert s1 else s1

/-- R86, R90: a beat n clocks after the last: the carousel's times start anew, the SYN sources' times move by the length of the beat, and the
crossbar is idle but for a step that the beat has stopped. EXTEST holds the carousel (R401). -/
def carBeat (s : State) (n : Nat) : Carousel :=
  if s.jtag.ir = .extest then s.car
  else { s.car with time := 0, lastEnd := 0, syn := s.car.syn.map (fun x => { x with last := x.last - n })
                    shown := (s.car.shown.filter (fun x => x.rest.any (fun t => decide (n < t)))).map (fun x => { x with rest := x.rest.map (fun t => t - n) }) }

/-- R60, R68: the sub-steps of the frame gap that are still in progress n clocks after the last beat. -/
def subsBeat (s : State) (n : Nat) : List Sub :=
  if s.jtag.ir = .extest then s.ana.subs
  else (s.ana.subs.filter (fun x => decide (n < x.upTo))).map (fun x => { x with burst := x.burst - n, upTo := x.upTo - n })

/-- The beat's number and clock, the carousel's times, and the ages that count beats (R7, R24, R90, R171, R202). -/
def beatCount (s : State) (period : Nat) : State :=
  let n := s.beat.clk
  lampsAge { s with
    beat := { s.beat with no := s.beat.no + 1, clk := 0, period := period }
    ana := { s.ana with subs := subsBeat s n }
    car := carBeat s n
    aux := { s.aux with age := s.aux.age.map (fun a => if a = 255 then a else a + 1) } }

/-! ### A frame begins -/

/-- R24, R354, R362: this beat begins a frame. -/
def frameBegins (s : State) : Bool :=
  inRun s && (s.pwr.mode == .scan || s.pwr.mode == .watch) && senseRuns s && !s.pwr.refStop
  && (match s.pwr.change with
      | .entering _ _ => false
      | .resuming _ => false
      | _ => true)
  && s.ana.startCal == 0 && (s.beat.running || s.lnk.ring || s.beat.lock)

/-- R109, R123: the axis baselines of an AXIS pass, copied in SCAN from its area, unless its pipeline is fenced. -/
def axisCopy (s : State) (p : Nat) : State :=
  let r := reg s
  let b := actProg s
  if (passList r b).contains p && passType r b p == 3 && s.pwr.mode == .scan && coreRuns s && !(getPass s p).pipeFen then
    (let s1 := granRead s (gbase r b p + baseOff r b p 0) (4 * colCount r b p)
     if (getPass s1 p).pipeFen then s1
     else setPass s1 p (fun x => { x with axis := (List.range (colCount r b p)).map (fun i => (baseWord s1 p i >>> 8) * 256) }))
  else s

/-- R130: the pass ran in the frame that has ended: some of its groups were neither STALE nor SKIP. -/
def passRan (x : Pass) : Bool := x.started && (x.ended &&& ~~~(x.stale ||| x.skip)) != 0

/-- A pass at the start of a frame. -/
def passFrame (x : Pass) : Pass :=
  { x with
    prevStale := x.stale, stale := 0, noisy := 0, skip := 0, zstale := 0, started := false, ended := 0, cand := none
    failNow := false, failRows := 0, ovr := false, finished := false, rows := [], checks := []
    failFrames := if x.failNow || !(passRan x) then x.failFrames else 0
    saved := if x.pipe.isSome then x.saved else [] }

/-- R185, R188, R192: a zone at the start of a frame. The frame that begins counts among those without an evaluation: a source evaluated again in
the 65th frame after its last evaluation is seated anew (DEDUCED, log 132). -/
def zoneFrame (s : State) (z : Nat) : State :=
  let s1 := setZone s z (fun x => { x with inFrame := false, seen := false, since := x.since + 1 })
  if 64 < (getZone s1 z).since then seatZone s1 z else s1

/-- R36: a zone whose source cannot be measured is tripped, without an evaluation, and shows it (R204). -/
def tripUnmeas (s : State) (z : Nat) : State :=
  if unmeasurable s z then setZone (tripZone s z) z (fun x => { x with unmeas := zoneUnmeas s z }) else s

/-- R368: the frames of a shield driver's repair test. -/
def shieldTestFrame (f : Faults) : Faults :=
  if f.busy && f.tested.any (fun u => u.cls == 4) then { f with frames := f.frames + 1 } else f

/-- R24, R61, R68, R98, R192, R368: the frame's counters and marks. CARSTAT.PASS keeps the last frame's number until a pass runs (DESIGN CHOICE,
log 110). -/
def frameCount (s : State) : State :=
  let s1 := { s with
    beat := { s.beat with running := true, frameSeq := s.beat.frameSeq + 1, scanFrames := s.beat.scanFrames + 1 }
    ana := { s.ana with calFrames := s.ana.calFrames + 1, chkFrames := s.ana.chkFrames + 1, calGap := s.ana.calForced, calForced := false }
    car := { s.car with heard := s.car.listened, listened := false, deadline := false, run := none }
    out := { s.out with entries := s.out.entries.map (fun e => { e with seen := false }) }
    cpu := if coreRuns s then { s.cpu with evt := putBit s.cpu.evt 1 true } else s.cpu
    flt := shieldTestFrame s.flt }
  elSetDue (calSetDue s1)

/-- R24: a frame begins. -/
def frameBegin (s : State) : State :=
  let s1 := allPasses (checkBegins (frameCount s)) passFrame
  let s2 := (List.range 16).foldl axisCopy s1
  let s3 := (List.range 32).foldl zoneFrame s2
  let s4 := evalAuxZones ((List.range 32).foldl tripUnmeas s3)
  longUpdate (permitsCount s4)

/-! ### The link at a beat (R319, R333) -/

/-- R304, R317, R319: a downlink that gets a BEAT in every beat: one in TRAIN or UP. -/
def beatOn (s : State) (k : Nat) : Bool := isDownlink s k && ((getPort s k).st == .train || (getPort s k).st == .up)

/-- R319: a beat of the worker's own has passed on both uplinks; the BEATs of one that has gone through a whole beat without one are no longer
present (log 115), but for the uplink that the beat comes from, which BEAT_SIDE_SWITCH and BEAT_LOST judge. -/
def beatsAge (s : State) : State :=
  let age := s.lnk.beatAge.map (fun n => n + 1)
  let k := b2n (!s.lnk.beatB)
  { s with lnk := { s.lnk with beatAge := age, beatSeen := if 2 ≤ age.getD k 0 then putBit s.lnk.beatSeen k false else s.lnk.beatSeen } }

/-- R312: a branch root that takes its beat from the A side sends its own BEAT to the manager on its B side. -/
def rootBeat (s : State) : Bool := isRoot s && !s.lnk.beatB && bit s.lnk.beatSeen 0 && (getPort s 1).st == .up

/-- R304, R312, R317, R319, R333: the BEATs that are due, and each manager's HEARTBEAT. -/
def linkBeat (s0 : State) : State :=
  let s := if isWorker s0 then beatsAge s0 else s0
  let s1 := [0, 1, 2, 3, 4, 5].foldl (fun s k => if beatOn s k || (k == 1 && rootBeat s) then setPort s k (fun p => { p with beatDue := true }) else s) s
  if isManager s1 && (s1.pwr.boot == .tree || inRun s1) then putDownAll s1 (upPorts s1) (heartbeatParcel s1) else s1

/-! ### BEAT -/

/-- Beats occur: the oscillator of SENSE runs (R24, R363). -/
def beatsOccur (s : State) : Bool :=
  s.pwr.powered && !s.pwr.rstLow && senseRuns s && !s.pwr.refStop && s.pwr.boot != .reset && s.pwr.boot != .clocks

/-- The frame boundary that a beat is, for a device that scans or begins to. -/
def beatFrame (s : State) : State :=
  if frameBegins s then frameBegin (fencesDue (boundary (unfenceDue s))) else s

/-- One beat. What it logs at the boundary belongs to one clock (R379). EXTEST holds the carousel, the zone unit and the permit logic (R401). -/
def beatStart (s : State) (period : Nat) : State :=
  let s0 := auxNow s
  let s1 := beatCount (unheld s0 (frameEnd s0)) period
  let s2 := if s1.lnk.strapDue then strapStop s1 else s1
  let s3 := if isManager s2 && s2.pwr.boot != .strapflt then managerBeat s2 else s2
  let s4 := holdoverBeat (scanEnter (watchEnter s3))
  let s5 := unheld s4 { s4 with beat := { s4.beat with running := s4.beat.running && frameBegins s4 } }
  let s6 := logOrder (unheld s5 (beatFrame (alertBeat s5))) s1.flt.logcount
  if linkRuns s6 && s6.pwr.boot != .strapflt then linkBeat s6 else s6

/-- R25: the range of beat periods, in SENSE clocks: 50 to 2,500 beats a second. -/
def ballRange (n : Nat) : Bool := decide (80000 ≤ n) && decide (n ≤ 4000000)

/-- R363: the ringmaster follows the BEAT ball. -/
def ballFollowed (s : State) : Bool := s.lnk.ring && rbit (reg s) 0x1604 0 && s.beat.following

/-- R363, R364: BEATCFG.PERIOD, 400 to 20,000 us, in SENSE clocks. -/
def ownPeriod (s : State) : Nat := 200 * min 20000 (max 400 (rf (reg s) 0x1604 1 15))

/-- R26: the source that was lost is still the beat source. -/
def stillLost (s : State) : Bool := s.beat.lost && (!s.lnk.ring || rbit (reg s) 0x1604 0)

/-- R25, R26, R85, R363: the beat period in force: the last measured one while the source is lost; a ringmaster's own; else, with BEATs present,
what its oscillator has measured. -/
def beatPeriod (s : State) (measured : Nat) : Nat :=
  if stillLost s then s.beat.period
  else if s.lnk.ring then ownPeriod s
  else if bit s.lnk.beatSeen (b2n s.lnk.beatB) && ballRange measured then measured
  else s.beat.period

/-- BEAT (R24): the beat oscillator starts a beat; while the ringmaster follows the BEAT ball, its beats are the ball's edges (R363); they go on during
EXTEST (R24, log 69). `measured` is the beat period that the oscillator of a device which follows BEAT parcels has measured, in
SENSE clocks. -/
def execBeat (measured : Nat) (s : State) : Res :=
  .next (
    if !(beatsOccur s) || ballFollowed s then s
    else beatStart { s with beat := { s.beat with lost := stillLost s } } (beatPeriod s measured))

/-! ### The BEAT ball and the loss of the beat (R26, R363) -/

/-- R363: two periods agree within 0.1 %. -/
def ballAgrees (a b : Nat) : Bool := decide (1000 * ((a : Int) - b).natAbs ≤ a)

/-- R363: a measured interval; `ballPer` is the first of the run of agreeing ones. -/
def ballTake (s : State) (n : Nat) : State :=
  let b := s.beat
  if !(ballRange n) then { s with beat := { b with ballRun := 0 } }
  else if b.ballRun = 0 ∨ ¬ ballAgrees b.ballPer n then { s with beat := { b with ballPer := n, ballRun := 1 } }
  else { s with beat := { b with ballRun := min 8 (b.ballRun + 1) } }

/-- BEAT_EDGE (R363): a rising edge `interval` SENSE clocks after the one before it. Once eight periods agree, the next beat is the next edge. -/
def execBeatEdge (interval : Nat) (s : State) : Res :=
  .next (
    if !(beatsOccur s) || !s.lnk.ring || !(rbit (reg s) 0x1604 0) then s
    else if ballFollowed s && ballRange interval then
      beatStart { s with beat := { s.beat with lost := false } } interval
    else
      (let s1 := ballTake s interval
       if s1.beat.ballRun = 8 then { s1 with beat := { s1.beat with following := true } } else s1))

/-- R26, R319: a worker whose other uplink's BEATs are present has not lost its beat. -/
def otherBeats (s : State) : Bool := isWorker s && bit s.lnk.beatSeen (b2n (!s.lnk.beatB))

/-- R26: the source of the beat can be lost: the ball that the ringmaster follows, or BEAT parcels. -/
def beatSourced (s : State) : Bool := if s.lnk.ring then rbit (reg s) 0x1604 0 else !(otherBeats s)

/-- BEAT_LOST (R26): two nominal periods without the beat source. -/
def execBeatLost (s : State) : Res :=
  .next (
    if !(beatsOccur s) || !(beatSourced s) then s
    else
      (let s1 := { s with
         beat := { s.beat with lost := true, lock := false, lockRun := 0, following := false, ballRun := 0 }
         lnk := { s.lnk with beatSeen := putBit s.lnk.beatSeen (b2n s.lnk.beatB) false } }
       if s.beat.lost then s1 else raise (logEv s1 0x18 0 0) 10))

end Sys2Proof.Machine
end

