-- ==== Sys2Proof/Machine/Power.lean ====
section
/-! DEFINITION. Supplies, reset and the reference clock (R14, R341 to R344, R356, R387, R388, R392). -/
namespace Sys2Proof.Machine

/-! ### Reset -/

/-- R8, R341: every register at its reset value. What lies outside the device stays: the supplies, the levels read back at the permit
outputs, the flash, JTAG, the passing of time and the commands that wait. AONSCR is cleared at power-on only (R364). -/
def resetAll (s : State) (scr : List (Nat × W16)) : State :=
  { pwr := { powered := s.pwr.powered, rstLow := s.pwr.rstLow, vhvOk := s.pwr.vhvOk, vfldOk := s.pwr.vfldOk, hostOk := s.pwr.hostOk
             flash := s.pwr.flash, aonscr := scr }
    beat := { now := s.beat.now, free := s.beat.free }
    out := { permits := s.out.permits.map (fun p => { out := p.out }) }
    jtag := s.jtag
    pending := s.pending }

/-- Reset by RESET_n (R341, R392). -/
def resetPin (s : State) : State := resetAll s s.pwr.aonscr

/-- POWER_ON_RESET (R341, R388): VDD18 or VDDIO is below 1.62 V. -/
def execPowerOnReset (s : State) : Res :=
  .next (resetAll { s with pwr := { s.pwr with powered := false }, jtag := {} } [])

/-- POWER_ON_RESET_RELEASE (R341): both supplies are above 1.62 V, and the millisecond of RESET begins. -/
def execPowerOnResetRelease (s : State) : Res := .next { s with pwr := { s.pwr with powered := true } }

/-- RESET_N_ASSERT (R392): held low for `ns`. From 1 us it resets; below 100 ns it does nothing; between, whether it resets is a free
value, as the manual does not define it (log 3). -/
def execResetNAssert (ns : Nat) (s : State) : Res :=
  .next (
    let low := fun (s : State) => resetPin { s with pwr := { s.pwr with rstLow := true } }
    if 1000 ≤ ns then low s
    else if ns < 100 then s
    else if Config.pulseResets (draw s).1 then low (draw s).2 else (draw s).2)

/-- RESET_N_RELEASE (R341): RESET_n rises, and the millisecond of RESET begins. -/
def execResetNRelease (s : State) : Res := .next { s with pwr := { s.pwr with rstLow := false } }

/-- R14, R15: the role from the ROLE level in thousandths of VDDIO. -/
def roleFrom (level : Nat) : Role :=
  if level ≤ 200 then .worker
  else if 400 ≤ level ∧ level ≤ 600 then .managerB
  else if 800 ≤ level then .managerA
  else .none

/-- RESET_END (R14, R355, R356): the millisecond expires: the straps are sampled and CLOCKS begins. -/
def execResetEnd (roleLevel : Nat) (strapSrc : BitVec 2) (s : State) : Res :=
  .next (
    if s.pwr.boot = .reset ∧ s.pwr.powered ∧ ¬ s.pwr.rstLow then
      enterClocks { s with pwr := { s.pwr with role := roleFrom roleLevel, bootSrc := strapSrc } }
    else s)

/-! ### Supplies -/

/-- VHV_LOSS (R343): VHVOK clears, and VHVLOSS sets with its entry; the excitations go off (R159). -/
def execVhvLoss (s : State) : Res :=
  .next (
    if !s.pwr.vhvOk then s
    else
      (let s1 := excMarks { s with pwr := { s.pwr with vhvOk := false } }
       if s.pwr.powered && s.pwr.boot != .reset then logEv { s1 with pwr := { s1.pwr with vhvLoss := true } } 0x19 0 0 else s1))

/-- VHV_RESTORE (R343). -/
def execVhvRestore (s : State) : Res := .next { s with pwr := { s.pwr with vhvOk := true } }

/-- VFLD_LOSS (R193, R201, R387): permits and lamps go off. -/
def execVfldLoss (s : State) : Res := .next (lampsOff (permitsOff { s with pwr := { s.pwr with vfldOk := false } }))

/-- VFLD_RESTORE (R387). -/
def execVfldRestore (s : State) : Res := .next { s with pwr := { s.pwr with vfldOk := true } }

/-- HOST_SUPPLY_LOSS (R341, R387): the host balls' inputs are ignored, and the device runs on. -/
def execHostSupplyLoss (s : State) : Res := .next { s with pwr := { s.pwr with hostOk := false } }

/-- HOST_SUPPLY_RESTORE (R387). -/
def execHostSupplyRestore (s : State) : Res := .next { s with pwr := { s.pwr with hostOk := true } }

/-! ### The reference clock (R344) -/

def domStop (d : Dom) : Dom := if d = .run then .retention else d

/-- REFCLK_LOSS (R344): permits OFF; SENSE, CORE and LINK stop with their registers kept, and the mode does not change. -/
def execRefclkLoss (s : State) : Res :=
  .next (
    if !s.pwr.powered || s.pwr.boot == .reset || s.pwr.refStop then s
    else
      lampsOff (permitsOff { s with
        pwr := { s.pwr with refLoss := true, refOk := false, refStop := true
                            sense := domStop s.pwr.sense, core := domStop s.pwr.core, link := domStop s.pwr.link }
        car := { (runPresent s).car with run := none } }))

/-- R344: the domains that the boot state and the mode keep running, running again as after a wake from HOLD (R353, R354); a level
requested during the loss takes force with CORE (R271). -/
def refResume (s : State) : State :=
  match s.pwr.boot, s.pwr.mode with
  | .clocks, _ => s
  | .run, .hold => s
  | .run, .dormant => s
  | .run, .watch => auxStart (senseStart s) true
  | .run, .scan => if scanEnded s then senseStart s else auxStart (senseStart (perfResume { s with pwr := { s.pwr with core := .run } })) true
  | _, _ => senseStart { s with pwr := { s.pwr with core := .run } }

/-- REFCLK_RESTORE (R344). -/
def execRefclkRestore (s : State) : Res :=
  .next (
    if !s.pwr.refStop then s
    else logEv (refResume { s with pwr := { s.pwr with refStop := false, refOk := true } }) 0x1A 0 0)

end Sys2Proof.Machine
end

