-- ==== Sys2Proof/Machine/RegAccess.lean ====
section
/-! DEFINITION. What each register reads and what an access to it does: host registers (R266, R267), CONFIG, AUX and LOG space
(R70, R101, R144, R145, R177, R204, R256, R298, R340, R364, R378, R381), for every side that reaches them. -/
namespace Sys2Proof.Machine

/-- A word whose bit i is f i. -/
def bitsW (n : Nat) (f : Nat → Bool) : W16 := w16 ((List.range n).foldl (fun a i => a + b2n (f i) * 2 ^ i) 0)

/-- Sixteen bits of a wider vector, from bit 16 w. -/
def slice {n : Nat} (v : BitVec n) (w : Nat) : W16 := w16 (fld v (16 * w) 16)

/-! ### Host registers (R266, R267) -/

/-- R267: STATUS. A ringmaster's own oscillator counts as locked (log 58). -/
def statusWord (s : State) : W16 :=
  w16 (bootCode s.pwr.boot + 8 * modeCode s.pwr.mode + 32 * b2n (s.pwr.mbusy || s.pwr.perfBusy) + 64 * b2n s.beat.lost
    + 128 * b2n (s.beat.lock || (s.lnk.ring && senseRuns s)) + 256 * b2n (faultsum s != 0)
    + 512 * b2n (s.out.permits.any (fun p => p.cmd)) + 1024 * b2n s.pwr.bootWr)

def winstatWord (s : State) : W16 :=
  w16 (b2n s.win.busy + 2 * b2n s.win.rdy + 4 * s.win.err.toNat + 64 * b2n s.win.errf)

def qTag (q : Queue) : W16 :=
  match q.words with
  | [] => 4
  | x :: _ => w16 (b2n x.eop + 2 * b2n x.vb)

def permitWord (s : State) : W16 :=
  bitsW 13 (fun i =>
    if i < 4 then (getPermit s i).force else if i < 8 then (getPermit s (i - 4)).cmd
    else if i < 12 then (getPermit s (i - 8)).out else s.pwr.vfldOk)

def permdiagWord (s : State) : W16 :=
  w16 ([0, 1, 2, 3].foldl (fun a k => a + ((getPermit s k).fault.toNat + 8 * b2n (getPermit s k).act) * 16 ^ k) 0)

def auxstatWord (s : State) : W16 :=
  let a := s.aux
  w16 (a.ch.toNat + 8 * b2n a.valid + 16 * b2n a.urg + 32 * b2n a.clip + 64 * b2n a.ovr + 256 * a.lostch.toNat
    + 2048 * a.rch.toNat + 16384 * b2n a.rurg + 32768 * b2n a.rclip)

def portCode : PortSt → Nat
  | .down => 0 | .train => 1 | .up => 2 | .fenced => 3

def linkstatWord (s : State) : W16 := w16 ([0, 1, 2, 3, 4, 5].foldl (fun a k => a + portCode (getPort s k).st * 4 ^ k) 0)

def lampdiagWord (s : State) : W16 := w16 ((List.range 8).foldl (fun a k => a + (getLamp s k).diag.toNat * 4 ^ k) 0)

/-- R267: TREECNT. -/
def treecntWord (s : State) : W16 :=
  if isManager s then w16 (s.lnk.treecnt.toNat + 512 * s.lnk.treedepth.toNat) else w16 (512 * (s.lnk.depth % 16))

/-- R266: ROLE lies in AON and reads in DORMANT as it stood. -/
def roleNow (s : State) : W16 := if s.pwr.mode = .dormant then s.pwr.roleKept else roleWord s

/-- R273: EPOCH. -/
def epochWord (s : State) : W16 :=
  w16 ((curEpoch s).toNat + 256 * (if s.lnk.ring then min 127 s.beat.pend else 0) + 32768 * b2n s.beat.done)

/-- R266: the domain from which a host register takes its content; none for AON. -/
def hostSource (s : State) (off : Nat) : Option Dom :=
  if off = 8 ∨ off = 9 ∨ (16 ≤ off ∧ off < 28) then some s.pwr.core
  else if (28 ≤ off ∧ off < 36) ∨ (38 ≤ off ∧ off < 43) then some s.pwr.sense
  else if off = 43 ∨ off = 44 then some s.pwr.link
  else none

/-- R266: reset values read while the source domain is off. -/
def hostResetWord (off : Nat) : W16 :=
  if off = 9 then 0x8000 else if off = 17 ∨ off = 23 then 4 else if off = 38 ∨ off = 39 then 0xFFFF else if off = 42 then 0x5555 else 0

/-- R267: the value of a host register other than WINDAT, RQDATA and BQDATA. -/
def hostWord (s : State) (off : Nat) : W16 :=
  match off with
  | 0x00 => 0x5E48
  | 0x01 => 0x0201
  | 0x02 => statusWord s
  | 0x03 => w16 (modeCode s.pwr.reqMode)
  | 0x04 => w16 (s.pwr.perfReq.toNat + 16 * s.pwr.perfNow.toNat)
  | 0x05 => s.pwr.irqstat
  | 0x06 => s.pwr.irqmask
  | 0x07 => faultsum s
  | 0x09 => epochWord s
  | 0x0A => s.win.sel
  | 0x0B => s.win.adr
  | 0x0D => winstatWord s
  | 0x0E => s.win.remadr
  | 0x11 => qTag s.rq
  | 0x12 => w16 (qCount s.rq)
  | 0x13 => w16 s.rq.pkt
  | 0x14 => w16 (4 * b2n s.rq.underrun + 8 * b2n s.rq.qerr)
  | 0x15 => s.rq.loss
  | 0x17 => qTag s.bq
  | 0x18 => w16 (qCount s.bq)
  | 0x19 => w16 s.bq.pkt
  | 0x1A => w16 (4 * b2n s.bq.underrun + 8 * b2n s.bq.qerr)
  | 0x1B => s.bq.loss
  | 0x1C => s.beat.frameSeq
  | 0x1D => w16 s.beat.no.toNat
  | 0x1E => slice s.beat.latBeat 1
  | 0x1F => s.beat.latPhase
  | 0x20 => w16 s.ana.calCnt.toNat
  | 0x21 => s.ana.latCnt
  | 0x22 => slice s.ana.latBeat 0
  | 0x23 => slice s.ana.latBeat 1
  | 0x24 => permitWord s
  | 0x25 => permdiagWord s
  | 0x26 => bitsW 16 (fun j => (getZone s j).trip)
  | 0x27 => bitsW 16 (fun j => (getZone s (16 + j)).trip)
  | 0x28 => s.aux.data
  | 0x29 => auxstatWord s
  | 0x2A => lampdiagWord s
  | 0x2B => linkstatWord s
  | 0x2C => treecntWord s
  | 0x2D => roleNow s
  | 0x2E => s.flt.errcnt0
  | 0x2F => s.flt.errcnt1
  | 0x30 => s.flt.logcount
  | 0x31 => s.pwr.wakecause
  | 0x32 => w16 (b2n s.pwr.lock + 4 * s.pwr.bootSrc.toNat)
  | 0x33 => s.pwr.scratch
  | _ => 0

/-- R266: the value of a host register with regard to its domain. -/
def hostValue (s : State) (off : Nat) : W16 :=
  match hostSource s off with
  | some .off => hostResetWord off
  | _ => hostWord s off

/-! ### CONFIG, AUX and LOG words -/

def noiseWord (s : State) (k : Nat) : W16 :=
  match s.car.noise.getD k none with
  | none => 0x8000
  | some v => BitVec.ofInt 16 v

def zstatWord (s : State) (z : Nat) : W16 :=
  let x := getZone s z
  bitsW 6 (fun i => match i with
    | 0 => x.trip | 1 => x.bvalid | 2 => x.fb | 3 => x.unmeas && x.trip | 4 => x.latched | _ => x.held)

def synHi (s : State) (k : Nat) : W16 := (getSyn s k).hiLatch

/-- R101: SYNLOST: enabled and not valid. -/
def carstatWord (s : State) : W16 :=
  w16 (b2n s.beat.running + 2 * s.car.pass.toNat + 32 * b2n s.car.long
    + 256 * ([0, 1, 2, 3].foldl (fun a k => a + b2n (rbit (reg s) (0x510 + k) 0 && !(getSyn s k).valid) * 2 ^ k) 0))

def gestWord (s : State) : W16 :=
  w16 (s.car.gest.last.toNat + 16 * b2n s.car.gest.ambig + 32 * b2n s.car.gest.multi + 64 * b2n s.car.gest.bvalid)

def domCode : Dom → Nat
  | .off => 0 | .retention => 1 | .run => 2

/-- R364: PWRSTAT. -/
def pwrstatWord (s : State) : W16 :=
  w16 (b2n s.pwr.vhvOk + 2 * b2n s.pwr.refOk + 4 * b2n s.pwr.vok + 8 * b2n s.pwr.vhvLoss + 16 * b2n s.pwr.refLoss
    + 32 * domCode s.pwr.sense + 128 * domCode s.pwr.core + 512 * domCode s.pwr.link)

/-- R256: CARUDSTAT's state code. -/
def carudCode : CarudSt → Nat
  | .running => 0 | .waiting => 1 | .halted => 2 | .dfault => 3

/-- R340: HBSTAT. -/
def hbstatWord (s : State) : W16 :=
  w16 (s.lnk.miss.toNat + 4 * b2n s.lnk.peer + 8 * b2n s.lnk.peerflt + 16 * b2n s.lnk.peerring + 32 * b2n (isManager s && selfFault s))

/-- R70, R101: words 0x0100 to 0x05FF that are not plain RW words. -/
def senseWord (s : State) (w : Nat) : W16 :=
  if w = 0x101 then w16 (s.ana.shdOvl.toNat + 16 * s.ana.shdFen.toNat)
  else if w = 0x103 then s.ana.clampFlg
  else if 0x108 ≤ w ∧ w < 0x110 then slice s.ana.ampFen (w - 0x108)
  else if 0x110 ≤ w ∧ w < 0x120 then s.ana.clampCnt.getD (w - 0x110) 0
  else if 0x400 ≤ w ∧ w < 0x420 then w16 ((List.range 8).foldl (fun a m => a + (s.ana.verdict.getD (8 * (w - 0x400) + m) 0).toNat * 4 ^ m) 0)
  else if 0x420 ≤ w ∧ w < 0x430 then slice s.ana.elFen (w - 0x420)
  else if w = 0x500 then stg s 0x500 ||| w16 (2 * b2n s.car.act)
  else if w = 0x501 then carstatWord s
  else if w = 0x503 then s.car.stalecnt
  else if w = 0x504 then (runPresent s).car.noisycnt
  else if w = 0x505 then s.car.hopcnt
  else if 0x518 ≤ w ∧ w < 0x520 then (if w % 2 = 0 then w16 (getSyn s ((w - 0x518) / 2)).period else synHi s ((w - 0x518) / 2))
  else if 0x520 ≤ w ∧ w < 0x528 then noiseWord s (w - 0x520)
  else if 0x528 ≤ w ∧ w < 0x52C then w16 ([0, 1, 2, 3].foldl (fun a i => a + (getPass s (4 * (w - 0x528) + i)).fq.toNat * 16 ^ i) 0)
  else stg s w

/-- Words 0x1240 to 0x17FF that are not plain RW words (R144, R256, R298, R340, R364, R381). -/
def midWord (s : State) (w : Nat) : W16 :=
  if w = 0x1241 then bitsW 16 (fun p => (getPass s p).bvalid)
  else if w = 0x1242 then bitsW 16 (fun p => (getPass s p).pipeFen)
  else if w = 0x1243 then s.car.chkcnt
  else if w = 0x1244 then s.car.pipeovr
  else if w = 0x1245 then s.car.negcnt
  else if w = 0x1249 then gestWord s
  else if w = 0x1300 then w16 (b2n s.cpu.halt)
  else if w = 0x1301 then w16 (carudCode s.cpu.st + 16 * s.cpu.lastv.toNat + 256 * b2n s.cpu.fen)
  else if w = 0x1302 then s.cpu.pc
  else if w = 0x1303 then w16 s.cpu.dfcause.toNat
  else if w = 0x1403 then w16 (b2n s.pa.isOpen + 2 * b2n s.pa.ready + 4 * b2n s.pa.abrt + 256 * s.pa.left.toNat)
  else if w = 0x1501 then hbstatWord s
  else if w = 0x1502 then s.lnk.tkcnt
  else if w = 0x1503 then s.lnk.resendcnt
  else if w = 0x1504 then s.lnk.collcnt
  else if w = 0x1505 then s.lnk.mboxovw
  else if w = 0x1506 then s.lnk.rxloss
  else if w = 0x1507 then s.lnk.fwddrop
  else if w = 0x150A then w16 s.lnk.head.toNat
  else if 0x1510 ≤ w ∧ w < 0x1516 then w16 ((getPort s (w - 0x1510)).dly.toNat + 32768 * b2n (getPort s (w - 0x1510)).dlyValid)
  else if 0x1518 ≤ w ∧ w < 0x151E then (getPort s (w - 0x1518)).err
  else if w = 0x1600 then pwrstatWord s
  else if 0x1680 ≤ w ∧ w < 0x1700 then sget zero16 s.pwr.aonscr (w - 0x1680)
  else if w = 0x1702 then w16 (b2n s.flt.busy + 2 * s.flt.res.toNat + 16 * b2n s.flt.ign)
  else if w = 0x1703 then s.mem.granFen
  else if w = 0x1704 then bitsW 16 (fun j => (getZone s j).fen)
  else if w = 0x1705 then bitsW 16 (fun j => (getZone s (16 + j)).fen)
  else stg s w

/-- R182, R204: ZMETRIC holds the latest e, signed; a free value where it does not fit (log 3). -/
def metricWord (s : State) (z : Nat) : W16 :=
  let e := (getZone s z).metric
  if -32768 ≤ e ∧ e ≤ 32767 then BitVec.ofInt 16 e else Config.metricRange e

/-- Words from 0x4800 that are not plain RW words (R204). -/
def zoneUnitWord (s : State) (w : Nat) : W16 :=
  if w < 0x4A00 then
    (let z := (w - 0x4800) / 16
     match w % 16 with
     | 9 => (getZone s z).tripcnt
     | 10 => metricWord s z
     | 11 => zstatWord s z
     | _ => stg s w)
  else if 0x4A10 ≤ w ∧ w < 0x4A20 then bitsW 16 (fun j => rtripBit s (16 * (w - 0x4A10) + j))
  else if w = 0x4D02 then bitsW 16 (fun i => if i < 8 then (getLamp s i).short else (getLamp s (i - 8)).gnded)
  else if 0x4D18 ≤ w ∧ w < 0x4D20 then (getLamp s (w - 0x4D18)).age
  else stg s w

/-- A word of CONFIG page 0, as a read returns it; a word that no register occupies reads 0 (R206). -/
def configWord (s : State) (w : Nat) : W16 :=
  if w < 0x600 then senseWord s w
  else if 0x1240 ≤ w ∧ w < 0x1800 then midWord s w
  else if 0x4800 ≤ w ∧ w < 0x4E00 then zoneUnitWord s w
  else stg s w

/-- R175, R166: a coefficient that a command set reads so; other AUX words read as staged. -/
def auxWord (s : State) (w : Nat) : W16 :=
  if w = 1 then w16 ((auxNow s).aux.effAdc.toNat + 4 * b2n s.aux.noAdc + 8 * ((auxNow s).aux.entry % 32))
  else if w = 3 then w16 (s.aux.adcFail.toNat + 16 * s.aux.adcFen.toNat)
  else if w = 4 then s.aux.discnt
  else if w = 5 then s.aux.urgcnt
  else if w = 6 then w16 (s.aux.excOvl.toNat + 16 * (bitsW 4 (fun j => refBadNow s j)).toNat)
  else if w = 8 then w16 (b2n s.aux.cal.busy + 2 * s.aux.cal.res.toNat + 16 * b2n s.aux.cal.ign)
  else if 0x100 ≤ w ∧ w < 0x104 then BitVec.ofInt 16 (s.aux.chkdev.getD (w - 0x100) 0)
  else if 0x10 ≤ w ∧ w < 0x50 then
    (let k := (w - 0x10) / 8
     match w % 8 with
     | 3 => s.aux.last.getD k 0
     | 4 => w16 ((s.aux.age.getD k 0).toNat + 256 * b2n (bit s.aux.lclip k))
     | 5 => stg s (0x10000 + w) ||| w16 (if k < 4 then 256 * b2n (bit s.aux.cmp k) else 0)
     | _ => stg s (0x10000 + w))
  else stg s (0x10000 + w)

/-- R378, R381: a word of LOG space. -/
def logSpaceWord (s : State) (w : Nat) : W16 :=
  if w < 0x200 then logWord s (w / 8) (w % 8) else if w = 0x200 then s.flt.loglost else 0

/-! ### Reads that change state (R8: RC fields; R101, R378) -/

/-- R10: an RC counter after a clearing read; `event` is an event of the same clock. A flag's event is a command of its own, which follows. -/
def rcCount (event : Bool) : W16 := w16 (b2n event)

/-- A clearing read of a host register. -/
def hostClear (s : State) (off : Nat) (event : Bool) : State :=
  match off with
  | 0x15 => { s with rq := { s.rq with loss := rcCount event } }
  | 0x1B => { s with bq := { s.bq with loss := rcCount event } }
  | 0x2E => { s with flt := { s.flt with errcnt0 := rcCount event } }
  | 0x2F => { s with flt := { s.flt with errcnt1 := rcCount event } }
  | 0x31 => { s with pwr := { s.pwr with wakecause := 0 } }
  | _ => s

/-- A read of CONFIG page 0. -/
def configRead (s : State) (w : Nat) (event : Bool) : State :=
  let c := rcCount event
  if 0x110 ≤ w ∧ w < 0x120 then { s with ana := { s.ana with clampCnt := upd s.ana.clampCnt (w - 0x110) (fun _ => c) } }
  else if w = 0x503 then { s with car := { s.car with stalecnt := c } }
  else if w = 0x504 then (let s1 := runPresent s; { s1 with car := { s1.car with noisycnt := c } })
  else if w = 0x505 then { s with car := { s.car with hopcnt := c } }
  else if 0x518 ≤ w ∧ w < 0x520 ∧ w % 2 = 0 then
    setSyn s ((w - 0x518) / 2) (fun x => { x with hiLatch := w16 (x.period / 65536 % 256 + 32768 * b2n x.valid) })
  else if w = 0x1243 then { s with car := { s.car with chkcnt := c } }
  else if w = 0x1244 then { s with car := { s.car with pipeovr := c } }
  else if w = 0x1245 then { s with car := { s.car with negcnt := c } }
  else if w = 0x1249 then { s with car := { s.car with gest := { s.car.gest with last := 0 } } }
  else if w = 0x1502 then { s with lnk := { s.lnk with tkcnt := c } }
  else if w = 0x1503 then { s with lnk := { s.lnk with resendcnt := c } }
  else if w = 0x1504 then { s with lnk := { s.lnk with collcnt := c } }
  else if w = 0x1505 then { s with lnk := { s.lnk with mboxovw := c } }
  else if w = 0x1506 then { s with lnk := { s.lnk with rxloss := c } }
  else if w = 0x1507 then { s with lnk := { s.lnk with fwddrop := c } }
  else if 0x1518 ≤ w ∧ w < 0x151E then setPort s (w - 0x1518) (fun p => { p with err := c })
  else if 0x4800 ≤ w ∧ w < 0x4A00 ∧ w % 16 = 9 then setZone s ((w - 0x4800) / 16) (fun z => { z with tripcnt := c })
  else s

/-- A read of AUX page 0. -/
def auxRead (s : State) (w : Nat) (event : Bool) : State :=
  if w = 4 then { s with aux := { s.aux with discnt := rcCount event } }
  else if w = 5 then { s with aux := { s.aux with urgcnt := rcCount event } }
  else s

/-- A read of LOG page 0 (R378). -/
def logSpaceRead (s : State) (w : Nat) (event : Bool) : State :=
  if w < 0x200 ∧ w % 8 = 7 then logRead s (w / 8)
  else if w = 0x200 then { s with flt := { s.flt with loglost := rcCount event } }
  else s

/-! ### Writes -/

/-- R297: the assembler's registers, which only Carud writes. -/
def paWrite (s : State) (side : Side) (w : Nat) (v : W16) : State :=
  match side with
  | .host => s
  | .carud =>
    if w = 0x1401 then pastartWrite s v else if w = 0x1402 then padataWrite s v
    else pastatWrite s v

/-- Writes of CONFIG page 0 that do more than store RW bits. -/
def configAct (s : State) (side : Side) (w : Nat) (v : W16) : Option State :=
  if w = 0x1300 then some (carudctlWrite s v)
  else if w = 0x1401 ∨ w = 0x1402 ∨ w = 0x1403 then some (paWrite s side w v)
  else if w = 0x1701 then some (unfcmdWrite s v)
  else configFlag s w v

/-- R8, R30: a write of CONFIG page 0. -/
def configWrite (s : State) (side : Side) (w : Nat) (v : W16) : State := (configAct s side w v).getD (plainWrite s w v)

/-- R170: a 1 written to AUXSTAT.OVR clears it. -/
def ovrClear (s : State) (v : W16) : State := { s with aux := { s.aux with ovr := s.aux.ovr && !(bit v 6) } }

/-- R208: Carud's write of SCRATCH. -/
def scratchCarud (s : State) (v : W16) : State := raise { s with pwr := { s.pwr with scratch := v } } 13

/-- R208, R170: Carud's write of a mirror register: SCRATCH, and AUXSTAT.OVR, which either side clears; every other is ignored (DESIGN CHOICE,
log 114). -/
def mirrorWrite (s : State) (off : Nat) (v : W16) : State :=
  if off = 0x33 then scratchCarud s v else if off = 0x29 then ovrClear s v else s

end Sys2Proof.Machine
end

