-- ==== Sys2Proof/Machine/WinSpace.lean ====
section
/-! DEFINITION. The window's spaces and pages (R274), what an access of it meets (R268, R276, R277), and the word that WINDAT shows (R208). -/
namespace Sys2Proof.Machine

/-- R267: WINSTAT.ERR's codes. -/
def errUnmapped : BitVec 4 := 1
def errEcc : BitVec 4 := 2
def errNodev : BitVec 4 := 3
def errTimeout : BitVec 4 := 4
def errRem : BitVec 4 := 5
def errEmpty : BitVec 4 := 6
def errOvf : BitVec 4 := 7
def errAsleep : BitVec 4 := 8

def winSpace (s : State) : Nat := fld s.win.sel 13 3
def winPage (s : State) : Nat := fld s.win.sel 0 8
/-- The window word that WINSEL and WINADR name, counted over all pages. -/
def winLin (s : State) : Nat := winPage s * 65536 + s.win.adr.toNat

/-- R274: the pages of a space. -/
def spacePages : Nat → Nat
  | 0 => 2 | 1 => 8 | 2 => 2 | 3 => 1 | 4 => 1 | 5 => 1 | 6 => 1 | _ => 256

/-- CODE, DATA and FRAME. -/
def memSpace (sp : Nat) : Bool := sp == 1 || sp == 2 || sp == 3

/-- R277: where REMOTE works. -/
def remoteOk (s : State) : Bool := isManager s && inRun s && s.pwr.mode == .scan

/-- R268, R274, R276, R277: why an access of the window is not made. REMOTE in HOLD and DORMANT is asleep as every space is (R276), and FGO is UNMAPPED
there (R277; DEDUCED, log 144). -/
def winGate (s : State) : Option (BitVec 4) :=
  let sp := winSpace s
  if s.pwr.boot = .hostload then (if (sp = 2 ∨ sp = 3 ∨ sp = 4) ∧ winPage s < spacePages sp then none else some errUnmapped)
  else if s.pwr.mode = .hold ∨ s.pwr.mode = .dormant then some errAsleep
  else if s.pwr.mode = .watch ∧ (memSpace sp ∨ sp = 4) then some errAsleep
  else if sp = 7 then (if remoteOk s then none else some errUnmapped)
  else if winPage s < spacePages sp then none else some errUnmapped

/-- The Carud address of window word `lin` of a memory space. -/
def memAddr (sp lin : Nat) : Nat := (if sp = 1 then granBase else if sp = 2 then codeBase else dataBase) + 2 * lin

/-- R276: one half of a word. -/
def halfOf (v : W32) (odd : Bool) : W16 := if odd then slice v 1 else slice v 0

/-- The words of CONFIG, MICRO, AUX and LOG. -/
def regWordAt (s : State) (sp lin : Nat) : W16 :=
  match sp with
  | 0 => if lin < 0x10000 then configWord s lin else if lin < 0x18000 then sget zero16 s.zon.sram (lin - 0x10000) else 0
  | 4 => if lin < microWords then sget zero16 s.cpu.micro lin else 0
  | 5 => auxWord s lin
  | _ => logSpaceWord s lin

/-- R276: the half of a memory word that a read at `lin` returns: the latched one where the read before latched it. -/
def memWordAt (s : State) (sp lin : Nat) : W16 :=
  let now := halfOf (rd32 s (memAddr sp lin / 4 * 4)) (lin % 2 == 1)
  match s.win.latch with
  | some l => if l.1 = lin ∧ l.2.1 = sp then l.2.2 else now
  | none => now

/-- R208: what WINDAT reads from Carud: the word that a host read would return now, with none of that read's effects (DEDUCED, log 71). -/
def windatWord (s : State) : W16 :=
  if (winGate s).isSome then 0
  else if winSpace s = 7 then s.win.fetched.headD 0
  else if memSpace (winSpace s) then memWordAt s (winSpace s) (winLin s)
  else regWordAt s (winSpace s) (winLin s)

end Sys2Proof.Machine
end

