-- ==== Sys2Proof/Machine/Operands.lean ====
section
/-! DEFINITION. Carud's accesses (R206 to R210), the register block (R213), operand forms (R216 to R221) and what accesses cost (R212). -/
namespace Sys2Proof.Machine

/-- R243: a trap: its vector, detail and address; for an uncorrectable word, that word (address / 4). -/
structure Trap where
  v : Nat
  detail : Nat
  adr : Option W32 := none
  word : Option Nat := none
  deriving DecidableEq, Repr

/-- R206: the regions of Carud's address space. -/
inductive Region where
  | prog | data | gran | mirror | block | config | aux | log
  deriving DecidableEq, Repr

def regionOf (a : Nat) : Option Region :=
  if a < 0x40000 then some .prog
  else if 0x100000 ≤ a ∧ a < 0x120000 then some .data
  else if 0x200000 ≤ a ∧ a < 0x300000 then some .gran
  else if 0x400000 ≤ a ∧ a < 0x400080 then some .mirror
  else if 0x402000 ≤ a ∧ a < 0x402200 then some .block
  else if 0x420000 ≤ a ∧ a < 0x460000 then some .config
  else if 0x4A0000 ≤ a ∧ a < 0x4C0000 then some .aux
  else if 0x4C0000 ≤ a ∧ a < 0x4E0000 then some .log
  else none

def isPeripheral (r : Region) : Bool := r == .mirror || r == .config || r == .aux || r == .log

/-- R207, R228: the register block takes words, and doublewords at MQ0 to MQ3. -/
def blockSize (a size : Nat) : Bool := size == 4 || (size == 8 && decide (0x402080 ≤ a) && decide (a < 0x4020A0))

/-- R206, R207: the ADDRESS detail with which an access faults: unmapped, misaligned, wrong size, fenced bank (log 70). -/
def accessFault (s : State) (a size : Nat) : Option Nat :=
  match regionOf a with
  | none => some 0
  | some r =>
    if a % size ≠ 0 then some 1
    else if (isPeripheral r && size != 2) || (r == .block && !(blockSize a size)) then some 5
    else if r == .gran && bit s.mem.granFen ((a - 0x200000) / 0x10000) then some 2
    else none

/-! ### The register block (R213) -/

def listAt (l : List W32) (i : Nat) : W32 := l.getD i 0

/-- R241: the return stack without its oldest entry, and that entry. -/
def rsPopOldest (rs : List W32) : List W32 × W32 := (rs.dropLast, rs.getLast?.getD 0)

/-- R213: the word at a byte offset of the register block. CYCHI is always the latch: also without a read of CYCLO before it, and a second time
(R248; DESIGN CHOICE, log 142). -/
def blockWord (s : State) (off : Nat) : W32 :=
  let c := s.cpu
  if off < 0x40 then listAt c.a (off / 4)
  else if off = 0x40 then (c.pr ||| 1).setWidth 32
  else if off = 0x44 then BitVec.ofNat 32 c.lpdepth
  else if 0x48 ≤ off ∧ off < 0x54 then listAt c.lps ((off - 0x48) / 4)
  else if 0x54 ≤ off ∧ off < 0x60 then listAt c.lpe ((off - 0x54) / 4)
  else if 0x60 ≤ off ∧ off < 0x6C then listAt c.lpc ((off - 0x60) / 4)
  else if off = 0x70 then c.crcacc
  else if off = 0x74 ∨ off = 0x78 then listAt c.crcpoly ((off - 0x74) / 4)
  else if off = 0x7C then c.crccfg
  else if 0x80 ≤ off ∧ off < 0xA0 then BitVec.ofNat 32 ((c.mq.getD ((off - 0x80) / 8) 0).toNat / (if off % 8 = 4 then 2 ^ 32 else 1))
  else if off = 0xA0 then c.mqstat.setWidth 32
  else if 0xB0 ≤ off ∧ off < 0xD0 then (if off % 8 = 0 then listAt c.cbb ((off - 0xB0) / 8) else listAt c.cbl ((off - 0xB0) / 8))
  else if 0xD0 ≤ off ∧ off < 0x100 then
    (match (off - 0xD0) % 12 with
     | 0 => listAt c.fdbase ((off - 0xD0) / 12)
     | 4 => listAt c.fddim ((off - 0xD0) / 12)
     | _ => listAt c.fdctl ((off - 0xD0) / 12))
  else if off = 0x100 then BitVec.ofNat 32 c.rs.length
  else if off = 0x104 then c.rs.headD 0
  else if off = 0x108 then (rsPopOldest c.rs).2
  else if off = 0x10C then BitVec.ofNat 32 (b2n c.rswrap)
  else if off = 0x110 then BitVec.ofNat 32 (b2n c.ie)
  else if off = 0x114 then c.tcause.setWidth 32
  else if off = 0x118 then c.tadr
  else if off = 0x11C then c.gfi.setWidth 32
  else if off = 0x120 then (evtStat s).setWidth 32
  else if off = 0x124 then c.evten.setWidth 32
  else if off = 0x128 then c.evtpass.setWidth 32
  else if off = 0x130 then c.cyc.setWidth 32
  else if off = 0x134 then c.cychi
  else if off = 0x138 then c.timer.setWidth 32
  else 0

/-- R241: RSBOT read. -/
def rsbotTake (s : State) : State := { s with cpu := { s.cpu with rs := (rsPopOldest s.cpu.rs).1 } }
/-- R241: RSBOT written. -/
def rsbotPut (s : State) (v : W32) : State := if 16 ≤ s.cpu.rs.length then s else { s with cpu := { s.cpu with rs := s.cpu.rs ++ [v] } }
/-- R248: CYCLO read. -/
def cycloTake (s : State) : State := { s with cpu := { s.cpu with cychi := BitVec.ofNat 32 (s.cpu.cyc.toNat / 2 ^ 32) } }
/-- R246: TIMER written. A write of 0 is no count-down that reaches 0, and makes no event (DESIGN CHOICE, log 135). -/
def timerPut (s : State) (v : W32) : State := { s with cpu := { s.cpu with timer := v.setWidth 24, timerClk := 0 } }

/-- R241, R248: what a read of the register block changes. -/
def blockRead (s : State) (off : Nat) : State := if off = 0x108 then rsbotTake s else if off = 0x130 then cycloTake s else s

/-- R227: a direct write to MQk cancels what is in flight to it. -/
def mqPut (s : State) (k : Nat) (v : BitVec 64) : State :=
  { s with cpu := { s.cpu with mq := upd s.cpu.mq k (fun _ => v), flight := s.cpu.flight.filter (fun o => o.k != k) } }

/-- R228: one half of MQk written. -/
def mqHalf (s : State) (k : Nat) (hi : Bool) (v : W32) : State :=
  let old := (s.cpu.mq.getD k 0).toNat
  mqPut s k (BitVec.ofNat 64 (if hi then v.toNat * 2 ^ 32 + old % 2 ^ 32 else old / 2 ^ 32 * 2 ^ 32 + v.toNat))

/-- R213: the first half of the register block written. -/
def blockWriteLow (s : State) (off : Nat) (v : W32) : State :=
  let c := s.cpu
  let put := fun (c : Carud) => { s with cpu := c }
  if off < 0x40 then put { c with a := upd c.a (off / 4) (fun _ => v) }
  else if off = 0x40 then put { c with pr := v.setWidth 8 ||| 1 }
  else if off = 0x44 then put { c with lpdepth := v.toNat % 4 }
  else if 0x48 ≤ off ∧ off < 0x54 then put { c with lps := upd c.lps ((off - 0x48) / 4) (fun _ => v) }
  else if 0x54 ≤ off ∧ off < 0x60 then put { c with lpe := upd c.lpe ((off - 0x54) / 4) (fun _ => v) }
  else if 0x60 ≤ off ∧ off < 0x6C then put { c with lpc := upd c.lpc ((off - 0x60) / 4) (fun _ => v) }
  else if off = 0x70 then put { c with crcacc := v }
  else if off = 0x74 ∨ off = 0x78 then put { c with crcpoly := upd c.crcpoly ((off - 0x74) / 4) (fun _ => v) }
  else if off = 0x7C then put { c with crccfg := v &&& 0x77 }
  else if 0x80 ≤ off ∧ off < 0xA0 then mqHalf s ((off - 0x80) / 8) (off % 8 == 4) v
  else if off = 0xA0 then put { c with mqstat := c.mqstat &&& ~~~(v.setWidth 4) }
  else if 0xB0 ≤ off ∧ off < 0xD0 then
    (if off % 8 = 0 then put { c with cbb := upd c.cbb ((off - 0xB0) / 8) (fun _ => v) } else put { c with cbl := upd c.cbl ((off - 0xB0) / 8) (fun _ => v) })
  else if 0xD0 ≤ off ∧ off < 0x100 then
    (match (off - 0xD0) % 12 with
     | 0 => put { c with fdbase := upd c.fdbase ((off - 0xD0) / 12) (fun _ => v) }
     | 4 => put { c with fddim := upd c.fddim ((off - 0xD0) / 12) (fun _ => v) }
     | _ => put { c with fdctl := upd c.fdctl ((off - 0xD0) / 12) (fun _ => v &&& 0xF) })
  else s

/-- R213: a word of the register block written; RSDEPTH, RSTOP and reserved bits take nothing. -/
def blockWrite (s : State) (off : Nat) (v : W32) : State :=
  let c := s.cpu
  let put := fun (c : Carud) => { s with cpu := c }
  if off < 0x100 then blockWriteLow s off v
  else if off = 0x108 then rsbotPut s v
  else if off = 0x10C then put { c with rswrap := bit v 0 }
  else if off = 0x110 then put { c with ie := bit v 0 }
  else if off = 0x114 then put { c with tcause := v.setWidth 8 }
  else if off = 0x118 then put { c with tadr := v }
  else if off = 0x11C then put { c with gfi := v.setWidth 4 }
  else if off = 0x120 then put { c with evt := c.evt &&& ~~~(v.setWidth 8) }
  else if off = 0x124 then put { c with evten := v.setWidth 8 &&& 0xDF }
  else if off = 0x128 then put { c with evtpass := c.evtpass &&& ~~~(v.setWidth 16) }
  else if off = 0x130 then put { c with cyc := BitVec.ofNat 64 (c.cyc.toNat / 2 ^ 32 * 2 ^ 32 + v.toNat) }
  else if off = 0x134 then put { c with cyc := BitVec.ofNat 64 (v.toNat * 2 ^ 32 + c.cyc.toNat % 2 ^ 32) }
  else if off = 0x138 then timerPut s v
  else s

/-! ### Accesses (R206 to R209) -/

/-- What an instruction has done so far: the state after its reads' side effects, and its accesses (R212). -/
structure Ctx where
  s : State
  reads : List Nat := []
  writes : List Nat := []
  periph : Nat := 0
  /-- R212: the peripheral words read in the present cycle, which a second read of the same address takes. -/
  got : List (Nat × W16) := []
  /-- R256: the instruction wrote CARUDCTL.RST. -/
  restart : Bool := false

/-- R209: the first word of an access that is uncorrectable. -/
def badWord (s : State) (a size : Nat) : Option Nat := ((List.range (ceilDiv size 4)).map (fun i => a / 4 + i)).find? (fun w => s.mem.bad.contains w)

/-- R209: single-bit errors in the words of an access are corrected and counted. -/
def softFix (s : State) (a size : Nat) : State :=
  let hit := fun (w : Nat) => decide (a / 4 ≤ w) && decide (w < a / 4 + ceilDiv size 4)
  { s with mem := { s.mem with soft := s.mem.soft.filter (fun w => !(hit w)) }
           flt := { s.flt with errcnt0 := satAdd s.flt.errcnt0 (s.mem.soft.filter hit).length } }

def eccKind (a : Nat) : Nat := if a < 0x40000 then 0 else if a < 0x200000 then 1 else 2

/-- `size` bytes from a, least significant first. -/
def memBytes (s : State) (a size : Nat) : BitVec 64 :=
  BitVec.ofNat 64 ((List.range size).foldl (fun v i => v + (rd8 s (a + i)).toNat * 256 ^ i) 0)

/-- R208: a Carud read of the host register mirror. -/
def mirrorRead (s : State) (o : Nat) : W16 × State :=
  if o = 0x10 ∨ o = 0x16 then (0, s)
  else if o = 0x0C then (windatWord s, s)
  else if o = 0x28 then (hostValue s o, auxTake s .carud)
  else (hostValue s o, s)

/-- R206: a halfword read in a peripheral region. -/
def periphRead (s : State) (r : Region) (a : Nat) : W16 × State :=
  match r with
  | .mirror => mirrorRead s ((a - 0x400000) / 2)
  | .config =>
    let w := (a - 0x420000) / 2
    if w < 0x10000 then (configWord s w, configRead s w false)
    else (if w < 0x18000 then sget zero16 s.zon.sram (w - 0x10000) else 0, s)
  | .aux => let w := (a - 0x4A0000) / 2; (auxWord s w, auxRead s w false)
  | .log => let w := (a - 0x4C0000) / 2; (logSpaceWord s w, logSpaceRead s w false)
  | _ => (0, s)

/-- R208, R256: a halfword write in a peripheral region. -/
def periphWrite (s : State) (r : Region) (a : Nat) (v : W16) : State :=
  match r with
  | .mirror => mirrorWrite s ((a - 0x400000) / 2) v
  | .config =>
    let w := (a - 0x420000) / 2
    if w < 0x10000 then configWrite s .carud w v else if w < 0x18000 then bitmapWrite s (w - 0x10000) v else s
  | .aux => auxWrite s ((a - 0x4A0000) / 2) v
  | _ => s

/-- One read of `size` bytes. A second read of a peripheral word in the same cycle is no access of its own (R212). -/
def accRead (c : Ctx) (a size : Nat) : Except Trap (BitVec 64 × Ctx) :=
  match accessFault c.s a size, regionOf a with
  | some d, _ => .error { v := 2, detail := d, adr := some (BitVec.ofNat 32 a) }
  | none, none => .error { v := 2, detail := 0, adr := some (BitVec.ofNat 32 a) }
  | none, some .block =>
    let off := a - 0x402000
    if size = 8 then .ok (c.s.cpu.mq.getD ((off - 0x80) / 8) 0, c)
    else .ok ((blockWord c.s off).setWidth 64, { c with s := blockRead c.s off })
  | none, some r =>
    if isPeripheral r then
      match c.got.find? (fun x => x.1 == a) with
      | some x => .ok (x.2.setWidth 64, c)
      | none =>
        let x := periphRead c.s r a
        .ok (x.1.setWidth 64, { c with s := x.2, reads := a :: c.reads, periph := c.periph + 1, got := (a, x.1) :: c.got })
    else match badWord c.s a size with
      | some w => .error { v := 3, detail := eccKind a, adr := some (BitVec.ofNat 32 (4 * w)), word := some w }
      | none => .ok (memBytes c.s a size, { c with s := softFix c.s a size, reads := a :: c.reads })

/-- R210: what instruction fetch goes on seeing of program RAM bytes about to be written. -/
def keepCode (s : State) (a size : Nat) : State :=
  if 0x40000 ≤ a then s
  else { s with cpu := { s.cpu with
    oldCode := s.cpu.oldCode ++ (((List.range size).map (fun i => a + i)).filter (fun x => !(s.cpu.oldCode.any (fun e => e.1 == x)))).map (fun x => (x, rd8 s x)) } }

/-- Bytes of a value, least significant first. -/
def valBytes (v : BitVec 64) (size : Nat) : List Byte := (List.range size).map (fun i => BitVec.ofNat 8 (v.toNat / 256 ^ i))

/-- R209: a memory write; a word written whole has valid check bits again. -/
def memWrite (s : State) (a size : Nat) (v : BitVec 64) : State :=
  let s1 := wrBytes (keepCode s a size) a (valBytes v size)
  let whole := fun (w : Nat) => !(decide (a ≤ 4 * w) && decide (4 * w + 4 ≤ a + size))
  { s1 with mem := { s1.mem with bad := s1.mem.bad.filter whole, soft := s1.mem.soft.filter whole } }

/-- One write of `size` bytes, already checked. -/
def accWrite (c : Ctx) (a size : Nat) (v : BitVec 64) : Ctx :=
  match regionOf a with
  | none => c
  | some .block =>
    let off := a - 0x402000
    if size = 8 then { c with s := mqPut c.s ((off - 0x80) / 8) v } else { c with s := blockWrite c.s off (v.setWidth 32) }
  | some r =>
    if isPeripheral r then
      { c with
        s := periphWrite c.s r a (v.setWidth 16), writes := a :: c.writes, periph := c.periph + 1
        restart := c.restart || (a == 0x422600 && bit v 1 && !c.s.cpu.fen) }
    else { c with s := memWrite c.s a size v, writes := a :: c.writes }

/-- R252: the stores that wait, in order, until one is held again; those behind a RESET of Carud take place too (log 83). -/
def lateRun : List (Nat × Nat × W32) → State → State
  | [], s => { s with pa := { s.pa with late := [] } }
  | x :: t, s =>
    let c := accWrite { s := s } x.1 x.2.1 (x.2.2.setWidth 64)
    if c.s.pa.held.isSome then { c.s with pa := { c.s.pa with late := t } } else lateRun t c.s

/-- R252, R298: Carud goes on: the stores that still wait act, and a HALT takes effect then (R257; log 138). -/
def lateDrain (s : State) : State :=
  if coreRuns s && s.cpu.st == .running && s.pa.held.isNone && !s.pa.late.isEmpty then haltNow (lateRun s.pa.late s) else s

/-! ### Operand forms (R216 to R221) -/

/-- Where an operand is: a value, an address, an address register, or a node outside its frame with EDGE = ZERO. -/
inductive Loc where
  | val (v : BitVec 64)
  | mem (a : Nat)
  | reg (n : Fin 16)
  | outside
  deriving DecidableEq, Repr

def areg (s : State) (n : Fin 16) : W32 := listAt s.cpu.a n

/-- R213: the element size of frame descriptor f. -/
def fdSize (c : Carud) (f : Nat) : Nat := if fld (listAt c.fdctl f) 0 2 = 3 then Config.fdSize3 else 2 ^ fld (listAt c.fdctl f) 0 2
/-- R213: the EDGE code of frame descriptor f. -/
def fdEdge (c : Carud) (f : Nat) : Nat := if fld (listAt c.fdctl f) 2 2 = 3 then Config.fdEdge3 else fld (listAt c.fdctl f) 2 2
def fdRows (c : Carud) (f : Nat) : Nat := (listAt c.fddim f).toNat / 65536
def fdCols (c : Carud) (f : Nat) : Nat := (listAt c.fddim f).toNat % 65536

/-- R220: the address of node (t, r) of frame f. -/
def nodeAddr (c : Carud) (f : Nat) (t r : Int) : Nat :=
  ((listAt c.fdbase f).toNat + ((t * fdCols c f + r) * fdSize c f).toNat) % 2 ^ 32

/-- R220: a NODE operand. In a frame without rows or columns CLAMP has no node to go to; the access then goes to FDBASE (DESIGN CHOICE,
log 133). -/
def nodeLoc (s : State) (n : Fin 16) (f : Nat) (dt dr : Byte) : Except Trap Loc :=
  let c := s.cpu
  let t : Int := ((areg s n).toNat / 65536 : Nat) + dt.toInt
  let r : Int := ((areg s n).toNat % 65536 : Nat) + dr.toInt
  if 0 ≤ t ∧ t < fdRows c f ∧ 0 ≤ r ∧ r < fdCols c f then .ok (.mem (nodeAddr c f t r))
  else match fdEdge c f with
    | 0 => .ok .outside
    | 1 => .ok (.mem (nodeAddr c f (limit 0 ((fdRows c f : Int) - 1) t) (limit 0 ((fdCols c f : Int) - 1) r)))
    | _ => .error { v := 2, detail := 4 }

/-- R216, R217: an operand's place, from the address registers as the instruction begins. -/
def locate (s : State) (o : Opd) : Except Trap Loc :=
  match o with
  | .imm v => .ok (.val (v.signExtend 64))
  | .immx v => .ok (.val (v.signExtend 64))
  | .dir a => .ok (.mem a.toNat)
  | .ind n d => .ok (.mem (areg s n + d.signExtend 32).toNat)
  | .idx n m sc d => .ok (.mem (areg s n + areg s m * BitVec.ofNat 32 (2 ^ sc.toNat) + d.signExtend 32).toNat)
  | .pinc n _ => .ok (.mem (areg s n).toNat)
  | .pdec n _ => .ok (.mem (areg s n).toNat)
  | .circ n _ _ => .ok (.mem (areg s n).toNat)
  | .node n f _ dt dr => nodeLoc s n f dt dr
  | .areg n => .ok (.reg n)
  | .rsvd _ _ => .error { v := 1, detail := 1 }

/-- The words of an operand specifier with its extension (R214). -/
def opdWords : Opd → Nat
  | .immx _ => 2
  | _ => 1

def putAreg (s : State) (n : Fin 16) (v : W32) : State := { s with cpu := { s.cpu with a := upd s.cpu.a n (fun _ => v) } }

/-- R221: An after a CIRC access; undefined where a condition of the buffer is broken (log 3). -/
def circStep (s : State) (n : Fin 16) (c : Nat) (k : Int) : State :=
  let base := (listAt s.cpu.cbb c).toNat
  let len := (listAt s.cpu.cbl c).toNat
  let a := (areg s n).toNat
  if base ≤ a ∧ a < base + len ∧ k.natAbs < len then
    (let x : Int := a + k
     putAreg s n (BitVec.ofInt 32 (if x ≥ base + len then x - len else if x < base then x + len else x)))
  else putAreg (draw s).2 n (Config.circUndefined (draw s).1)

/-- R220: An advances by one node. -/
def nodeStep (s : State) (n : Fin 16) (f : Nat) : State :=
  let t := (areg s n).toNat / 65536
  let r := (areg s n).toNat % 65536
  let next := if r + 1 = fdCols s.cpu f then (t + 1) % 65536 * 65536 else t * 65536 + (r + 1) % 65536
  putAreg s n (BitVec.ofNat 32 next)

/-- R216, R217: the register update of an operand after the instruction. -/
def opdUpdate (size : Nat) (s : State) (o : Opd) : State :=
  match o with
  | .pinc n k => putAreg s n (areg s n + BitVec.ofNat 32 (if k = 0 then size else k.toNat))
  | .pdec n k => putAreg s n (areg s n - BitVec.ofNat 32 (if k = 0 then size else k.toNat))
  | .circ n c k => circStep s n c (if k = 0 then size else k.toInt)
  | .node n f true _ _ => nodeStep s n f
  | _ => s

/-! ### Values (R218) -/

/-- R214: the bytes of SZ. -/
def szBytes (sz : BitVec 2) : Nat := 2 ^ sz.toNat
def szBits (sz : BitVec 2) : Nat := 8 * szBytes sz

/-- R218: the low SZ bits of a value extended to 32. -/
def extend (sz : BitVec 2) (u : Bool) (v : BitVec 64) : W32 :=
  let n := szBits sz
  if u then BitVec.ofNat 32 (v.toNat % 2 ^ n) else BitVec.ofInt 32 (signed v.toNat n)

/-- R218: the value of a read operand on 32 bits; immediates stand as they are. -/
def readLoc (c : Ctx) (l : Loc) (h : IHdr) : Except Trap (W32 × Ctx) :=
  match l with
  | .val v => .ok (v.setWidth 32, c)
  | .reg n => .ok (extend h.sz h.u ((areg c.s n).setWidth 64), c)
  | .outside => .ok (0, c)
  | .mem a =>
    match accRead c a (szBytes h.sz) with
    | .error t => .error t
    | .ok x => .ok (extend h.sz h.u x.1, x.2)

/-- A read operand. -/
def readOpd (s0 : State) (h : IHdr) (c : Ctx) (o : Opd) : Except Trap (W32 × Ctx) :=
  match locate s0 o with
  | .error t => .error t
  | .ok l => readLoc c l h

/-- R207: the place of a written operand, checked before any effect. -/
def destLoc (s0 : State) (h : IHdr) (o : Opd) : Except Trap Loc :=
  match locate s0 o with
  | .error t => .error t
  | .ok (.mem a) =>
    match accessFault s0 a (szBytes h.sz) with
    | some d => .error { v := 2, detail := d, adr := some (BitVec.ofNat 32 a) }
    | none => .ok (.mem a)
  | .ok l => .ok l

/-- R218: a result in memory, truncated to SZ. AREG destinations are written after the register updates (R217). -/
def writeMem (c : Ctx) (h : IHdr) (l : Loc) (v : BitVec 64) : Ctx :=
  match l with
  | .mem a => accWrite c a (szBytes h.sz) v
  | _ => c

/-- R217: an AREG destination takes the result, truncated to SZ. -/
def writeReg (s : State) (h : IHdr) (l : Loc) (v : BitVec 64) : State :=
  match l with
  | .reg n => putAreg s n (BitVec.ofNat 32 (v.toNat % 2 ^ szBits h.sz))
  | _ => s

/-! ### Cost (R212) -/

/-- R206: the access bank of an address; none for the register block. -/
def bankOf (a : Nat) : Option Nat :=
  match regionOf a with
  | some .prog => some 0
  | some .data => some (1 + a / 4 % 8)
  | some .gran => some (9 + a / 65536 % 16)
  | some .block => none
  | some _ => some 25
  | none => none

/-- R212: the cycles that accesses beyond the first of each bank add; `prev` are the writes of the instruction before. -/
def conflictCycles (reads prev : List Nat) : Nat :=
  let as := (reads ++ prev).eraseDups
  (List.range 26).foldl (fun n b => n + ((as.filter (fun a => bankOf a == some b)).length - 1)) 0

end Sys2Proof.Machine
end

