-- ==== Sys2Proof/Machine/CarudRun.lean ====
section
/-! DEFINITION. How Carud runs one instruction (R212, R219, R222, R234): guard, checks, completion, loop ends; traps, the return stack
and double faults (R238 to R244). -/
namespace Sys2Proof.Machine

/-! ### Traps (R238 to R244) -/

/-- R238: the frame that a trap entry pushes. -/
def frameWord (c : Carud) (ret : W16) : W32 :=
  BitVec.ofNat 32 (ret.toNat + 2 ^ 16 + 2 ^ 17 * (c.pr.toNat / 2) + 2 ^ 24 * (c.lpdepth % 4) + 2 ^ 26 * b2n c.ie
    + (match c.gather with
       | none => 0
       | some k => 2 ^ 27 + 2 ^ 28 * k.toNat))

/-- R239: an entry is pushed; from depth 16 in WRAP mode the oldest entry is discarded. -/
def pushEntry (c : Carud) (e : W32) : List W32 := if c.rswrap && decide (16 ≤ c.rs.length) then e :: c.rs.dropLast else e :: c.rs

/-- R242: a double fault on the way to vector v. -/
def doubleFault (s : State) (v : Nat) : State :=
  let s1 := { s with cpu := { s.cpu with fen := true, st := .dfault, dfcause := BitVec.ofNat 4 v } }
  paAbort (refault (raise (fenceNote s1 0x12 0 (w16 v)) 1) 6 0)

/-- R244: a trap entry. -/
def trapTake (s : State) (v detail : Nat) (adr : Option W32) (ret : W16) : State :=
  if !s.cpu.rswrap && decide (17 ≤ s.cpu.rs.length) then doubleFault s v
  else
    (let c := s.cpu
     corePass { s with cpu := { c with
       rs := pushEntry c (frameWord c ret), tcause := BitVec.ofNat 8 (v + 16 * detail), tadr := adr.getD c.tadr
       ie := false, lpdepth := 0, pc := w16 (4 * v), lastv := BitVec.ofNat 4 v, fresh := true, gather := none
       oldCode := [], wrote := [] } } 4)

/-- R209: an uncorrectable Granary word fences its bank. -/
def fenceOf (s : State) (word : Option Nat) : State :=
  match word with
  | some w => if granBase ≤ 4 * w then bankFence s ((4 * w - granBase) / 0x10000) else s
  | none => s

/-- R242, R244: a fault of the instruction at pc, which has had no effect. -/
def faultTake (s : State) (t : Trap) : State :=
  let s1 := fenceOf s t.word
  let s2 := if s1.cpu.fresh then doubleFault s1 t.v else trapTake s1 t.v t.detail t.adr s1.cpu.pc
  if t.word.isSome then logOrder s2 s.flt.logcount else s2

/-- R245: an event trap is due. -/
def eventDue (s : State) : Bool := s.cpu.ie && evtPending s

/-- R245: the event trap. -/
def eventTrap (s : State) : State := trapTake s 15 0 none s.cpu.pc

/-! ### Completion (R210, R212, R234) -/

/-- What an instruction has come to: its accesses and effects, its cycles (R223), the branch it takes, and what it leaves for the
instruction after it. -/
structure Done where
  c : Ctx
  cost : Nat := 1
  jump : Option W16 := none
  gather : Option (BitVec 4) := none
  /-- R233: no loop end acts. -/
  opens : Bool := false

/-- R233: the address LPE of the innermost active level is this instruction's. -/
def atLoopEnd (c : Carud) : Bool := decide (0 < c.lpdepth) && (listAt c.lpe (c.lpdepth - 1)).toNat == 4 * c.pc.toNat

/-- R234: the loop end; the level's next iteration, or its end. -/
def loopEnd (c : Carud) (next : W16) : Carud :=
  if !(atLoopEnd c) then { c with pc := next }
  else
    (let l := c.lpdepth - 1
     if 1 < (listAt c.lpc l).toNat then
       { c with lpc := upd c.lpc l (fun x => x - 1), pc := w16 ((listAt c.lps l).toNat / 4) }
     else { c with lpdepth := l, pc := next })

/-- R210, R234: where execution goes on. -/
def advance (c : Carud) (len : Nat) (d : Done) : Carud :=
  match d.jump with
  | some t => { c with pc := t, oldCode := [] }
  | none => if d.opens then { c with pc := c.pc + w16 len } else loopEnd c (c.pc + w16 len)

/-- R212: the peripheral words that an instruction reads while the one before it writes them; such a read is no access of its own. -/
def forwarded (reads prev : List Nat) : Nat := (reads.eraseDups.filter (fun a => prev.contains a && bankOf a == some 25)).length

/-- R212: the cycles of a completed instruction of `len` words. -/
def cycles (prev : List Nat) (len : Nat) (d : Done) : Nat :=
  d.cost + conflictCycles d.c.reads prev + (d.c.periph - forwarded d.c.reads prev) + b2n (decide (5 ≤ len))

/-- The state after a completed instruction; one that reset Carud (R256) goes on at vector 0. -/
def complete (s : State) (n len : Nat) (d : Done) : State :=
  let s1 := d.c.s
  if d.c.restart then corePass s1 n
  else
    (let c := advance { s1.cpu with pc := s.cpu.pc } len d
     corePass { s1 with cpu := { c with fresh := false, gather := d.gather, wrote := d.c.writes } } n)

/-- An instruction that only takes its place: a NOP, or a false guard (R215, R222). -/
def passOver (s : State) (len : Nat) : State := complete s 1 len { c := { s := s } }

/-! ### Checks before any effect (R219, R233) -/

def illegal (d : Nat) : Trap := { v := 1, detail := d }

/-- SZ = D is valid only with MOV (R218). -/
def notD (h : IHdr) : Bool := h.sz != 3

/-- R219: the checks of the opcode word: SZ, X, and position. -/
def headCheck (sizeOk xOk placeOk : Bool) : Option Trap :=
  if !sizeOk then some (illegal 3) else if !xOk then some (illegal 4) else if !placeOk then some (illegal 6) else none

/-- R216, R219: a written operand. -/
def destCheck : Opd → Option Trap
  | .rsvd _ _ => some (illegal 1)
  | .imm _ => some (illegal 2)
  | .immx _ => some (illegal 2)
  | _ => none

/-- R216: a read operand. -/
def srcCheck : Opd → Option Trap
  | .rsvd _ _ => some (illegal 1)
  | _ => none

/-- R223, R236: an operand that must be memory. -/
def memCheck : Opd → Option Trap
  | .rsvd _ _ => some (illegal 1)
  | .imm _ => some (illegal 1)
  | .immx _ => some (illegal 1)
  | .areg _ => some (illegal 1)
  | _ => none

/-- The first check that fails. -/
def firstTrap : List (Option Trap) → Option Trap
  | [] => none
  | some t :: _ => some t
  | none :: l => firstTrap l

/-- The words of an instruction. -/
def lenOf (ops : List Opd) : Nat := 1 + (ops.map opdWords).sum

/-! ### One instruction -/

/-- Carud's next instruction; first, and for that command alone, the writes of the one before that still wait (R298): the event trap that is due before it, its guard, its checks, its effect. -/
def carudStep (s : State) (h : IHdr) (len : Nat) (check : Option Trap) (body : Except Trap Done) : State :=
  if !(carudActs s) then lateDrain s
  else if eventDue s then eventTrap s
  else if isNopGuard h then passOver s 1
  else if !(guardOk s h) then passOver s len
  else match check with
    | some t => faultTake s t
    | none =>
      match body with
      | .error t => faultTake s t
      | .ok d => complete s (cycles s.cpu.wrote len d) len d

/-- R217: what follows an instruction's accesses: the memory result, the register updates in operand order, an AREG result. -/
def finish (c : Ctx) (h : IHdr) (ops : List Opd) (l : Loc) (v : BitVec 64) : Done :=
  let c1 := writeMem c h l v
  if c1.restart then { c := c1 }
  else { c := { c1 with s := writeReg (ops.foldl (opdUpdate (szBytes h.sz)) c1.s) h l v } }

/-- An instruction that writes nothing to an operand. -/
def finishRead (c : Ctx) (h : IHdr) (ops : List Opd) (f : Carud → Carud) : Done :=
  let s1 := { c.s with cpu := f c.s.cpu }
  { c := { c with s := ops.foldl (opdUpdate (szBytes h.sz)) s1 } }

/-- d ← f s. -/
def unary (s0 : State) (h : IHdr) (d src : Opd) (f : W32 → BitVec 64) : Except Trap Done := do
  let l ← destLoc s0 h d
  let a ← readOpd s0 h { s := s0 } src
  return finish a.2 h [d, src] l (f a.1)

/-- d ← f s1 s2. -/
def binary (s0 : State) (h : IHdr) (d s1 s2 : Opd) (f : W32 → W32 → BitVec 64) : Except Trap Done := do
  let l ← destLoc s0 h d
  let a ← readOpd s0 h { s := s0 } s1
  let b ← readOpd s0 h a.2 s2
  return finish b.2 h [d, s1, s2] l (f a.1 b.1)

/-- An instruction of two sources whose result is machine state. -/
def sources (s0 : State) (h : IHdr) (s1 s2 : Opd) (f : W32 → W32 → Carud → Carud) : Except Trap Done := do
  let a ← readOpd s0 h { s := s0 } s1
  let b ← readOpd s0 h a.2 s2
  return finishRead b.2 h [s1, s2] (f a.1 b.1)

/-- The shape d, s with X = 0. -/
def runUnary (s : State) (h : IHdr) (sizeOk xOk : Bool) (d src : Opd) (f : W32 → BitVec 64) : State :=
  carudStep s h (lenOf [d, src]) (firstTrap [headCheck sizeOk xOk true, destCheck d, srcCheck src]) (unary s h d src f)

/-- The shape d, s1, s2 with X = 0. -/
def runBinary (s : State) (h : IHdr) (d s1 s2 : Opd) (f : W32 → W32 → BitVec 64) : State :=
  carudStep s h (lenOf [d, s1, s2]) (firstTrap [headCheck (notD h) (h.x == 0) true, destCheck d, srcCheck s1, srcCheck s2]) (binary s h d s1 s2 f)

/-- The shape s1, s2. -/
def runSources (s : State) (h : IHdr) (xOk : Bool) (s1 s2 : Opd) (f : W32 → W32 → Carud → Carud) : State :=
  carudStep s h (lenOf [s1, s2]) (firstTrap [headCheck (notD h) xOk true, srcCheck s1, srcCheck s2]) (sources s h s1 s2 f)

end Sys2Proof.Machine
end

