-- ==== Sys2Proof/Machine/CarudData.lean ====
section
/-! DEFINITION. Carud's moves, arithmetic, logic and shifts (R223, R224), comparisons (R225) and predicate logic. -/
namespace Sys2Proof.Machine

/-! ### MOV, LEA -/

/-- R218: MOV.D's source: memory, MQk or an immediate. -/
def readD (c : Ctx) (l : Loc) : Except Trap (BitVec 64 × Ctx) :=
  match l with
  | .val v => .ok (v, c)
  | .mem a => accRead c a 8
  | _ => .ok (0, c)

/-- R218: MOV with SZ = D. -/
def movD (s0 : State) (h : IHdr) (d src : Opd) : Except Trap Done := do
  let l ← destLoc s0 h d
  let m ← locate s0 src
  let a ← readD { s := s0 } m
  return finish a.2 h [d, src] l a.1

def isAreg : Opd → Bool
  | .areg _ => true
  | _ => false

/-- MOV (R223): d ← s. -/
def execMov (h : IHdr) (d src : Opd) (s : State) : Res :=
  .next (
    if h.sz = 3 then
      carudStep s h (lenOf [d, src])
        (firstTrap [headCheck (!(isAreg d) && !(isAreg src)) (h.x == 0) true, destCheck d, srcCheck src]) (movD s h d src)
    else runUnary s h true (h.x == 0) d src (fun a => a.setWidth 64))

/-- R223: the address of a memory operand; of a node outside its frame with EDGE = ZERO the manual states none (log 3). -/
def addrOf (s : State) (l : Loc) : W32 × State :=
  match l with
  | .mem a => (BitVec.ofNat 32 a, s)
  | _ => (Config.outsideAddr (draw s).1, (draw s).2)

def leaBody (s0 : State) (h : IHdr) (d src : Opd) : Except Trap Done := do
  let l ← destLoc s0 h d
  let m ← locate s0 src
  let a := addrOf s0 m
  return finish { s := a.2 } h [d, src] l (a.1.setWidth 64)

/-- LEA (R223): d ← address of s. -/
def execLea (h : IHdr) (d src : Opd) (s : State) : Res :=
  .next (carudStep s h (lenOf [d, src]) (firstTrap [headCheck (notD h) (h.x == 0) true, destCheck d, memCheck src]) (leaBody s h d src))

/-! ### Arithmetic (R223, R224) -/

/-- The number a 32-bit operand stands for. -/
def numOf (u : Bool) (a : W32) : Int := if u then a.toNat else a.toInt

/-- R223: saturation to the SZ range. -/
def satSz (sz : BitVec 2) (u : Bool) (x : Int) : BitVec 64 :=
  BitVec.ofInt 64 (if u then limit 0 (2 ^ szBits sz - 1) x else limit (-(2 ^ (szBits sz - 1))) (2 ^ (szBits sz - 1) - 1) x)

/-- ADD (R223): wraps. -/
def execAdd (h : IHdr) (d s1 s2 : Opd) (s : State) : Res := .next (runBinary s h d s1 s2 (fun a b => (a + b).setWidth 64))

/-- SUB (R223): wraps. -/
def execSub (h : IHdr) (d s1 s2 : Opd) (s : State) : Res := .next (runBinary s h d s1 s2 (fun a b => (a - b).setWidth 64))

/-- ADDS (R223): saturates to the SZ range. -/
def execAdds (h : IHdr) (d s1 s2 : Opd) (s : State) : Res :=
  .next (runBinary s h d s1 s2 (fun a b => satSz h.sz h.u (numOf h.u a + numOf h.u b)))

/-- SUBS (R223): saturates to the SZ range. -/
def execSubs (h : IHdr) (d s1 s2 : Opd) (s : State) : Res :=
  .next (runBinary s h d s1 s2 (fun a b => satSz h.sz h.u (numOf h.u a - numOf h.u b)))

/-- NEG (R223): wraps. -/
def execNeg (h : IHdr) (d src : Opd) (s : State) : Res := .next (runUnary s h (notD h) (h.x == 0) d src (fun a => (-a).setWidth 64))

/-- ABS (R223): saturates to the SZ signed range. -/
def execAbs (h : IHdr) (d src : Opd) (s : State) : Res :=
  .next (runUnary s h (notD h) (h.x == 0) d src (fun a => satSz h.sz false (numOf h.u a).natAbs))

/-- MIN (R223). -/
def execMin (h : IHdr) (d s1 s2 : Opd) (s : State) : Res :=
  .next (runBinary s h d s1 s2 (fun a b => (if compare h.u 2 b a then b else a).setWidth 64))

/-- MAX (R223). -/
def execMax (h : IHdr) (d s1 s2 : Opd) (s : State) : Res :=
  .next (runBinary s h d s1 s2 (fun a b => (if compare h.u 2 a b then b else a).setWidth 64))

/-! ### Logic and shifts (R223) -/

/-- AND (R223). -/
def execAnd (h : IHdr) (d s1 s2 : Opd) (s : State) : Res := .next (runBinary s h d s1 s2 (fun a b => (a &&& b).setWidth 64))

/-- OR (R223). -/
def execOr (h : IHdr) (d s1 s2 : Opd) (s : State) : Res := .next (runBinary s h d s1 s2 (fun a b => (a ||| b).setWidth 64))

/-- XOR (R223). -/
def execXor (h : IHdr) (d s1 s2 : Opd) (s : State) : Res := .next (runBinary s h d s1 s2 (fun a b => (a ^^^ b).setWidth 64))

/-- NOT (R223). -/
def execNot (h : IHdr) (d src : Opd) (s : State) : Res := .next (runUnary s h (notD h) (h.x == 0) d src (fun a => (~~~a).setWidth 64))

/-- R223: a shift left by n[5:0]. -/
def shiftLeft (a n : W32) : W32 := a <<< (n.toNat % 64)

/-- R223: a shift right by n[5:0], arithmetic or, with U, logical. -/
def shiftRight (u : Bool) (a n : W32) : W32 := if u then a >>> (n.toNat % 64) else a.sshiftRight (n.toNat % 64)

/-- SHL (R223). -/
def execShl (h : IHdr) (d src n : Opd) (s : State) : Res := .next (runBinary s h d src n (fun a k => (shiftLeft a k).setWidth 64))

/-- SHR (R223). -/
def execShr (h : IHdr) (d src n : Opd) (s : State) : Res := .next (runBinary s h d src n (fun a k => (shiftRight h.u a k).setWidth 64))

/-- R223: bits [lsb + w - 1:lsb], extended. -/
def extract (u : Bool) (a : W32) (lsb w : Nat) : BitVec 64 :=
  let f := fld a lsb w
  BitVec.ofInt 64 (if u then f else signed f w)

/-- EXT (R223). -/
def execExt (h : IHdr) (d src : Opd) (s : State) : Res :=
  .next (
    let lsb := fld h.x 0 5
    let w := fld h.x 5 5 + 1
    runUnary s h (notD h) (fld h.x 10 6 == 0 && decide (lsb + w ≤ 32)) d src (fun a => extract h.u a lsb w))

/-! ### Predicates (R222, R223, R225) -/

/-- CMP (R225). -/
def execCmp (h : IHdr) (s1 s2 : Opd) (s : State) : Res :=
  .next (runSources s h (h.x &&& 0xFC88 == 0 && decide (fld h.x 4 3 ≤ 5)) s1 s2
    (fun a b c => setPred c (fld h.x 0 3) (combine (fld h.x 8 2) (predOf c (fld h.x 0 3)) (compare h.u (fld h.x 4 3) a b))))

/-- TST (R223). -/
def execTst (h : IHdr) (s1 s2 : Opd) (s : State) : Res :=
  .next (runSources s h (h.x &&& 0xFCF8 == 0) s1 s2
    (fun a b c => setPred c (fld h.x 0 3) (combine (fld h.x 8 2) (predOf c (fld h.x 0 3)) (a &&& b != 0))))

/-- R223: PLOG's effect. -/
def plogPut (x : W16) (c : Carud) : Carud :=
  let a := predOf c (fld x 4 3) != bit x 14
  let b := predOf c (fld x 8 3) != bit x 15
  setPred c (fld x 0 3) (predLogic (fld x 12 2) a b)

/-- PLOG (R223). It has no data size. -/
def execPlog (h : IHdr) (s : State) : Res :=
  .next (carudStep s h 1 (headCheck true (h.x &&& 0x0888 == 0) true) (.ok (finishRead { s := s } h [] (plogPut h.x))))

end Sys2Proof.Machine
end

