-- ==== Sys2Proof/Machine/CarudMac.lean ====
section
/-! DEFINITION. Carud's multiplier (R226 to R229), CRC, parity, bit reverse and residue (R231, R232). -/
namespace Sys2Proof.Machine

/-! ### Multiplier -/

/-- R226, R227: an operation on MQk is issued; it writes MQk four cycles on. -/
def mqIssue (k : Nat) (acc : Bool) (u : Bool) (a b : W32) (c : Carud) : Carud :=
  { c with flight := c.flight ++ [{ k := k, due := 4, acc := acc, prod := numOf u a * numOf u b }] }

/-- MUL (R226). -/
def execMul (h : IHdr) (s1 s2 : Opd) (s : State) : Res :=
  .next (runSources s h (fld h.x 2 14 == 0) s1 s2 (fun a b => mqIssue (fld h.x 0 2) false h.u a b))

/-- MAC (R226). -/
def execMac (h : IHdr) (s1 s2 : Opd) (s : State) : Res :=
  .next (runSources s h (fld h.x 2 14 == 0) s1 s2 (fun a b => mqIssue (fld h.x 0 2) true h.u a b))

/-- R229: MQk rounded, shifted and saturated. -/
def mqValue (h : IHdr) (q : BitVec 64) : BitVec 64 :=
  let k := fld h.x 2 6
  let v : Int := if h.u then q.toNat else q.toInt
  let r := if bit h.x 8 then roundShift v k else v >>> k
  if bit h.x 9 then satSz h.sz h.u r else BitVec.ofInt 64 r

def mqrdBody (s0 : State) (h : IHdr) (d : Opd) : Except Trap Done := do
  let l ← destLoc s0 h d
  return finish { s := s0 } h [d] l (mqValue h (s0.cpu.mq.getD (fld h.x 0 2) 0))

/-- MQRD (R229). -/
def execMqrd (h : IHdr) (d : Opd) (s : State) : Res :=
  .next (carudStep s h (lenOf [d]) (firstTrap [headCheck (notD h) (fld h.x 10 6 == 0) true, destCheck d]) (mqrdBody s h d))

/-! ### CRC, parity, bit reverse, residue -/

/-- R213: the width of user slot j (2 or 3). -/
def crcWidth (c : Carud) (j : Nat) : Nat :=
  match fld c.crccfg (4 * (j - 2)) 2 with
  | 0 => 8
  | 1 => 16
  | 2 => 32
  | _ => Config.crcWidth3

/-- R231: one byte into the CRC register under a slot's rule. -/
def crcFeed (c : Carud) (slot : Nat) (acc : Nat) (b : Nat) : Nat :=
  match slot with
  | 0 => crcByteFwd 0x1021 16 acc b
  | 1 => crcByteRefl 0x04C11DB7 32 acc b
  | j =>
    let w := crcWidth c j
    let p := (listAt c.crcpoly (j - 2)).toNat % 2 ^ w
    if bit c.crccfg (4 * (j - 2) + 2) then crcByteRefl p w (acc % 2 ^ w) b else crcByteFwd p w acc b

/-- R231: `size` bytes of a value, most significant first. -/
def crcWord (c : Carud) (slot size : Nat) (acc v : W32) : W32 :=
  BitVec.ofNat 32 ((valBytes (v.setWidth 64) size).reverse.foldl (fun x b => crcFeed c slot x b.toNat) acc.toNat)

def crcwBody (s0 : State) (h : IHdr) (src : Opd) : Except Trap Done := do
  let a ← readOpd s0 h { s := s0 } src
  return finishRead a.2 h [src] (fun c => { c with crcacc := crcWord c (fld h.x 0 2) (szBytes h.sz) c.crcacc a.1 })

/-- CRCW (R231). -/
def execCrcw (h : IHdr) (src : Opd) (s : State) : Res :=
  .next (carudStep s h (lenOf [src]) (firstTrap [headCheck (notD h) (fld h.x 2 14 == 0) true, srcCheck src]) (crcwBody s h src))

/-- PARITY (R223). -/
def execParity (h : IHdr) (d src : Opd) (s : State) : Res :=
  .next (runUnary s h (notD h) (h.x == 0) d src (fun a => BitVec.ofNat 64 (b2n (parityBit a.toNat (szBits h.sz)))))

/-- BREV (R223). -/
def execBrev (h : IHdr) (d src : Opd) (s : State) : Res :=
  .next (
    let w := fld h.x 0 5 + 1
    runUnary s h (notD h) (fld h.x 5 11 == 0 && decide (w ≤ szBits h.sz)) d src (fun a => BitVec.ofNat 64 (reverseBits a.toNat w)))

/-- R232: d is read as unsigned, then s. -/
def residBody (s0 : State) (h : IHdr) (d src : Opd) : Except Trap Done := do
  let l ← destLoc s0 h d
  let a ← readLoc { s := s0 } l { h with u := true }
  let b ← readOpd s0 h a.2 src
  return finish b.2 h [d, src] l (BitVec.ofNat 64 ((residue a.1.toNat + residue (numOf h.u b.1)) % 65521))

/-- RESID (R232). -/
def execResid (h : IHdr) (d src : Opd) (s : State) : Res :=
  .next (carudStep s h (lenOf [d, src])
    (firstTrap [headCheck (h.sz == 1 || h.sz == 2) (h.x == 0) true, destCheck d, srcCheck src]) (residBody s h d src))

end Sys2Proof.Machine
end

