-- ==== Sys2Proof/Machine/CarudFlow.lean ====
section
/-! DEFINITION. Carud's branches, calls, loops (R223, R233, R239, R240), WAIT (R247), NOP (R215), and the software trap (R243). -/
namespace Sys2Proof.Machine

/-! ### Branches -/

/-- R223: a branch target must be word-aligned within program RAM. -/
def target (a : W32) : Except Trap W16 :=
  if 0x40000 ≤ a.toNat then .error { v := 2, detail := 0, adr := some a }
  else if a.toNat % 4 ≠ 0 then .error { v := 2, detail := 1, adr := some a }
  else .ok (w16 (a.toNat / 4))

/-- R223: own address + 4 × disp. -/
def relative (s : State) (x : W16) : W32 := BitVec.ofNat 32 (4 * s.cpu.pc.toNat) + BitVec.ofInt 32 (4 * x.toInt)

/-- R233: branches and their like must not stand at the innermost level's end. -/
def flowCheck (s : State) (xOk : Bool) : Option Trap := headCheck true xOk (!(atLoopEnd s.cpu))

/-- The same for one that reads an operand. -/
def flowCheckSz (s : State) (h : IHdr) (xOk : Bool) : Option Trap := headCheck (notD h) xOk (!(atLoopEnd s.cpu))

def brBody (s : State) (h : IHdr) : Except Trap Done := do
  let t ← target (relative s h.x)
  return { c := { s := s }, cost := 3, jump := some t }

/-- BR (R223). -/
def execBr (h : IHdr) (s : State) : Res := .next (carudStep s h 1 (flowCheck s true) (brBody s h))

/-- A branch to the value of an operand. -/
def jmpBody (s : State) (h : IHdr) (src : Opd) : Except Trap Done := do
  let a ← readOpd s h { s := s } src
  let t ← target a.1
  return { finishRead a.2 h [src] id with cost := 3, jump := some t }

/-- JMP (R223). -/
def execJmp (h : IHdr) (src : Opd) (s : State) : Res :=
  .next (carudStep s h (lenOf [src]) (firstTrap [flowCheckSz s h (h.x == 0), srcCheck src]) (jmpBody s h src))

/-- R239: a call's push, or the RSOVF trap, which is a double fault at depth 17. -/
def pushCall (c : Carud) (ret : W16) : Except Trap (List W32) :=
  if !c.rswrap && decide (16 ≤ c.rs.length) then .error { v := 5, detail := 0 } else .ok (pushEntry c (ret.setWidth 32))

def callBody (s : State) (h : IHdr) : Except Trap Done := do
  let t ← target (relative s h.x)
  let rs ← pushCall s.cpu (s.cpu.pc + 1)
  return { c := { s := { s with cpu := { s.cpu with rs := rs } } }, cost := 3, jump := some t }

/-- CALL (R223, R239). -/
def execCall (h : IHdr) (s : State) : Res := .next (carudStep s h 1 (flowCheck s true) (callBody s h))

def calliBody (s : State) (h : IHdr) (src : Opd) : Except Trap Done := do
  let a ← readOpd s h { s := s } src
  let t ← target a.1
  let rs ← pushCall a.2.s.cpu (s.cpu.pc + w16 (lenOf [src]))
  return { finishRead a.2 h [src] (fun c => { c with rs := rs }) with cost := 3, jump := some t }

/-- CALLI (R223, R239). -/
def execCalli (h : IHdr) (src : Opd) (s : State) : Res :=
  .next (carudStep s h (lenOf [src]) (firstTrap [flowCheckSz s h (h.x == 0), srcCheck src]) (calliBody s h src))

/-- R240: the top entry, which must be of the kind popped. -/
def popTop (c : Carud) (trapFrame : Bool) : Except Trap W32 :=
  match c.rs with
  | [] => .error { v := 6, detail := 0 }
  | e :: _ => if bit e 16 = trapFrame then .ok e else .error (illegal 7)

def retBody (s : State) : Except Trap Done := do
  let e ← popTop s.cpu false
  return { c := { s := { s with cpu := { s.cpu with rs := s.cpu.rs.tail } } }, cost := 3, jump := some (e.setWidth 16) }

/-- RET (R240). -/
def execRet (h : IHdr) (s : State) : Res := .next (carudStep s h 1 (flowCheck s (h.x == 0)) (retBody s))

def resumeBody (s : State) : Except Trap Done := do
  let e ← popTop s.cpu true
  let c := { s.cpu with rs := s.cpu.rs.tail, pr := BitVec.ofNat 8 (2 * fld e 17 7 + 1), lpdepth := fld e 24 2, ie := bit e 26 }
  return { c := { s := { s with cpu := c } }, cost := 3, jump := some (e.setWidth 16)
           gather := if bit e 27 then some (BitVec.ofNat 4 (fld e 28 4)) else none }

/-- RESUME (R240). -/
def execResume (h : IHdr) (s : State) : Res := .next (carudStep s h 1 (flowCheck s (h.x == 0)) (resumeBody s))

/-- TRAP (R243): a software trap, which is no fault (R242). -/
def execTrap (h : IHdr) (s : State) : Res :=
  .next (
    if !(carudActs s) then lateDrain s
    else if eventDue s then eventTrap s
    else if isNopGuard h || !(guardOk s h) then passOver s 1
    else match flowCheck s (fld h.x 4 12 == 0) with
      | some t => faultTake s t
      | none => trapTake { s with cpu := { s.cpu with gather := none } } 9 (fld h.x 0 4) none (s.cpu.pc + 1))

/-! ### Loops (R233) -/

/-- A program-RAM byte as instruction fetch sees it (R210). -/
def fetch8 (s : State) (a : Nat) : Byte :=
  match s.cpu.oldCode.find? (fun e => e.1 == a) with
  | some e => e.2
  | none => rd8 s a

def fetch32 (s : State) (a : Nat) : W32 := BitVec.ofNat 32 ((List.range 4).foldl (fun v i => v + (fetch8 s (a + i)).toNat * 256 ^ i) 0)

/-- R249: words of the decode table. -/
def decodeEntry (s : State) (n : Nat) : W32 :=
  BitVec.ofNat 32 ((sget zero16 s.cpu.micro (0x800 + 2 * n)).toNat + 65536 * (sget zero16 s.cpu.micro (0x801 + 2 * n)).toNat)

/-- R223: the operands of an opcode; none where it is undefined. -/
def operandCount (s : State) (op : Nat) : Option Nat :=
  if op = 1 ∨ op = 2 then some 2
  else if op = 3 ∨ (8 ≤ op ∧ op ≤ 0xB) then some 3
  else if op = 0xC ∨ op = 0xD then some 2
  else if 0xE ≤ op ∧ op ≤ 0x12 then some 3
  else if op = 0x13 then some 2
  else if op = 0x14 ∨ op = 0x15 then some 3
  else if op = 0x16 ∨ op = 0x18 ∨ op = 0x19 then some 2
  else if op = 0x1A then some 0
  else if op = 0x20 ∨ op = 0x21 then some 2
  else if op = 0x22 ∨ op = 0x28 then some 1
  else if op = 0x29 ∨ op = 0x2A ∨ op = 0x2B then some 2
  else if op = 0x30 ∨ op = 0x32 ∨ op = 0x34 ∨ op = 0x35 ∨ op = 0x36 ∨ op = 0x38 ∨ op = 0x39 then some 0
  else if op = 0x31 ∨ op = 0x33 ∨ op = 0x37 then some 1
  else if 0xF0 ≤ op ∧ op ≤ 0xFF then some (fld (decodeEntry s (op - 0xF0)) 10 2)
  else none

/-- The words of n operands from address a (R214). -/
def operandLen (s : State) (a : Nat) : Nat → Nat
  | 0 => 0
  | n + 1 =>
    let k := if fld (fetch32 s a) 28 4 = 1 then 2 else 1
    k + operandLen s (a + 4 * k) n

/-- The words of the instruction at address a (R214, R215). -/
def lenAt (s : State) (a : Nat) : Nat :=
  let w := fetch32 s a
  if fld w 20 4 = 8 then 1 else 1 + operandLen s (a + 4) ((operandCount s (fld w 24 8)).getD 0)

/-- R233: a level opens, or with s = 0 execution continues after the last body instruction. -/
def loopOpen (s : State) (h : IHdr) (src : Opd) (a : W32 × Ctx) : Done :=
  let last := 4 * s.cpu.pc.toNat + 4 * fld h.x 0 14
  if a.1 = 0 then { finishRead a.2 h [src] id with cost := 3, jump := some (w16 (last / 4 + lenAt s last)) }
  else
    { finishRead a.2 h [src] (fun c => { c with
        lps := upd c.lps c.lpdepth (fun _ => BitVec.ofNat 32 (4 * (s.cpu.pc.toNat + lenOf [src])))
        lpe := upd c.lpe c.lpdepth (fun _ => BitVec.ofNat 32 last)
        lpc := upd c.lpc c.lpdepth (fun _ => a.1), lpdepth := c.lpdepth + 1 }) with opens := true }

def loopBody (s : State) (h : IHdr) (src : Opd) : Except Trap Done := do
  if s.cpu.lpdepth ≥ 3 then throw { v := 7, detail := 0 }
  let a ← readOpd s h { s := s } src
  return loopOpen s h src a

/-- LOOP (R233). -/
def execLoop (h : IHdr) (src : Opd) (s : State) : Res :=
  .next (carudStep s h (lenOf [src]) (firstTrap [flowCheckSz s h (fld h.x 14 2 == 0), srcCheck src]) (loopBody s h src))

def lbrkBody (s : State) (h : IHdr) : Except Trap Done := do
  if s.cpu.lpdepth = 0 then throw { v := 7, detail := 1 }
  let t ← target (relative s h.x)
  return { c := { s := { s with cpu := { s.cpu with lpdepth := s.cpu.lpdepth - 1 } } }, cost := 3, jump := some t }

/-- LBRK (R233). -/
def execLbrk (h : IHdr) (s : State) : Res := .next (carudStep s h 1 (flowCheck s true) (lbrkBody s h))

/-! ### WAIT (R247) and NOP (R215) -/

/-- R247: with no enabled event pending Carud waits. -/
def waitBegin (s : State) : State :=
  let s1 := { s with cpu := { s.cpu with st := .waiting, fresh := false, gather := none, wrote := [] } }
  corePass s1 1

/-- WAIT (R247). -/
def execWait (h : IHdr) (s : State) : Res :=
  .next (
    if carudActs s && !(eventDue s) && !(isNopGuard h) && guardOk s h && (flowCheck s (h.x == 0)).isNone && !(evtPending s) then waitBegin s
    else carudStep s h 1 (flowCheck s (h.x == 0)) (.ok { c := { s := s } }))

/-- WAIT_RELEASE (R247, R257): the WAIT completes, and a halt requested meanwhile takes effect. -/
def execWaitRelease (s : State) : Res :=
  .next (
    if coreRuns s && s.cpu.st == .waiting && evtPending s then
      { s with cpu := { s.cpu with st := if s.cpu.halt then .halted else .running, pc := s.cpu.pc + 1 } }
    else s)

/-- NOP (R215, R223): the opcode word w. Opcode 0x00 traps with every guard but 0b1000; an undefined opcode traps when its guard is
true. A defined opcode's word is no NOP. -/
def execNop (w : W32) (s : State) : Res :=
  .next (
    let h : IHdr := ⟨BitVec.ofNat 4 (fld w 20 4), 0, false, 0⟩
    if isNopGuard h then carudStep s h 1 none (.ok { c := { s := s } })
    else if fld w 24 8 = 0 then carudStep s { h with g := 0 } 1 (some (illegal 0)) (.ok { c := { s := s } })
    else if (operandCount s (fld w 24 8)).isNone then carudStep s h 1 (some (illegal 0)) (.ok { c := { s := s } })
    else s)

end Sys2Proof.Machine
end

