-- ==== Sys2Proof/Machine/CarudGather.lean ====
section
/-! DEFINITION. GATH (R236, R237): element by element, with its faults, the event trap at an element boundary, and its continuation. -/
namespace Sys2Proof.Machine

/-- R236: the address of an element: an offset from the operand's address; none for a node outside its frame with EDGE = ZERO, where
reads give 0 and writes are discarded (R220). -/
def elemLoc (l : Loc) (off : Nat) : Loc :=
  match l with
  | .mem a => .mem ((a + off) % 2 ^ 32)
  | x => x

/-- A read of one element's index or word. -/
def elemRead (c : Ctx) (l : Loc) (size : Nat) : Except Trap (BitVec 64 × Ctx) :=
  match l with
  | .mem a => accRead c a size
  | _ => .ok (0, c)

/-- A write of one element, with its checks. -/
def elemWrite (c : Ctx) (l : Loc) (size : Nat) (v : BitVec 64) : Except Trap Ctx :=
  match l with
  | .mem a =>
    match accessFault c.s a size with
    | some d => .error { v := 2, detail := d, adr := some (BitVec.ofNat 32 a) }
    | none => .ok (accWrite c a size v)
  | _ => .ok c

/-- R236: the places of the three operands. -/
structure GathOps where
  d : Loc
  b : Loc
  i : Loc

/-- R236: element k: its index, its word, its write, and their faults in that order (DEDUCED, log 134). -/
def element (s : State) (size : Nat) (g : GathOps) (k : Nat) : Except Trap Ctx := do
  let x ← elemRead { s := s } (elemLoc g.i (2 * k)) 2
  let w ← elemRead x.2 (elemLoc g.b (x.1.toNat * size)) size
  elemWrite w.2 (elemLoc g.d (k * size)) size w.1

/-- R237: the fault kind of an element as GATHER's detail. -/
def gatherDetail (t : Trap) : Nat := if t.v = 3 then 3 else t.detail

/-- R237: the GATHER trap at element k. -/
def gatherFault (s : State) (k : Nat) (t : Trap) : State :=
  let s1 := { s with cpu := { s.cpu with gfi := BitVec.ofNat 4 k, gather := some (BitVec.ofNat 4 k) } }
  faultTake s1 { v := 4, detail := gatherDetail t, adr := t.adr, word := t.word }

/-- One cycle of an element, with the conflicts of its reads and its peripheral accesses. Elements' writes do not conflict with the
reads of the next element, as R237's worked example counts them (log 72). -/
def elementPass (c : Ctx) : State :=
  corePass { c.s with cpu := { c.s.cpu with wrote := c.writes } } (1 + conflictCycles c.reads [] + c.periph)

/-- R236: the register updates, once the last element has completed. -/
def gathDone (s : State) (h : IHdr) (ops : List Opd) : State :=
  let s1 := ops.foldl (opdUpdate (szBytes h.sz)) s
  { s1 with cpu := { advance s1.cpu (lenOf ops) { c := { s := s1 } } with fresh := false, gather := none } }

/-- R236, R237, R257: elements k to k + m - 1; after each, a halt, a hold or an event trap acts at the boundary, and after element `cut` the
commands that follow, the gather being continued by the next GATH. -/
def elements (h : IHdr) (ops : List Opd) (g : GathOps) (cut : Option (Fin 16)) : Nat → Nat → State → State
  | 0, _, s => gathDone s h ops
  | m + 1, k, s =>
    match element s (szBytes h.sz) g k with
    | .error t => gatherFault s k t
    | .ok c =>
      let s1 := elementPass c
      if c.restart then s1
      else if m = 0 then gathDone s1 h ops
      else
        (let s2 := { s1 with cpu := { s1.cpu with gather := some (BitVec.ofNat 4 (k + 1)) } }
         if !(carudActs s2) then s2 else if eventDue s2 then eventTrap s2
         else if cut.any (fun c => c.val == k) then s2 else elements h ops g cut m (k + 1) s2)

/-- R236: the gather begins, or continues at the element that a resumed frame names. -/
def gathRun (s : State) (h : IHdr) (d b i : Opd) (cut : Option (Fin 16)) : Except Trap State := do
  let ld ← locate s d
  let lb ← locate s b
  let li ← locate s i
  let g : GathOps := { d := ld, b := lb, i := li }
  let n := fld h.x 0 4 + 1
  match s.cpu.gather with
  | some k => return elements h [d, b, i] g cut (n - k.toNat) k.toNat s
  | none => return elements h [d, b, i] g cut n 0 (let s1 := corePass s 1; { s1 with cpu := { s1.cpu with wrote := [] } })

/-- R219, R236: the checks of GATH. -/
def gathCheck (h : IHdr) (d b i : Opd) : Option Trap :=
  firstTrap [headCheck (notD h) (fld h.x 4 12 == 0) true, destCheck d, memCheck d, memCheck b, memCheck i]

/-- GATH (R236, R237). A continued gather does not evaluate its guard again. -/
def execGath (g : GathHdr) (d b i : Opd) (s : State) : Res :=
  .next (
    let h := g.hdr
    if !(carudActs s) then lateDrain s
    else if eventDue s then eventTrap s
    else if isNopGuard h then passOver s 1
    else if s.cpu.gather.isNone && !(guardOk s h) then passOver s (lenOf [d, b, i])
    else match gathCheck h d b i with
      | some t => faultTake s t
      | none =>
        match gathRun s h d b i g.cut with
        | .error t => faultTake s t
        | .ok t => t)

end Sys2Proof.Machine
end

