-- ==== Sys2Proof/Machine/CarudUser.lean ====
section
/-! DEFINITION. User instructions (R249 to R254): the decode table, micro-operations, the write buffer and its commit. -/
namespace Sys2Proof.Machine

/-- R250: entry e of the microcode store. -/
def microEntry (s : State) (e : Nat) : BitVec 64 :=
  BitVec.ofNat 64 ((List.range 4).foldl (fun v j => v + (sget zero16 s.cpu.micro (4 * e + j)).toNat * 65536 ^ j) 0)

/-- R252: one entry of the write buffer. -/
inductive Buf where
  | o1 (v : W32)
  | st (a : Nat) (size : Nat) (v : W32)
  | crc (v : W32)
  | setp (v : Bool)
  deriving DecidableEq, Repr

/-- R250, R252: what does not change while the user instruction runs. -/
structure UCtx where
  h : IHdr
  start : Nat
  dst : Bool
  pw : Bool
  /-- Operand values O1 to O3 and addresses AD1 to AD3. -/
  vals : List W32
  adrs : List W32
  /-- Operand 1's place. -/
  loc : Option Loc

/-- R250: the micro-machine: the next micro-op, temporaries, predicates, write buffer, accesses made, micro-ops run. -/
structure Micro where
  e : Nat
  t : List W32
  up : BitVec 4
  buf : List Buf
  c : Ctx
  ran : Nat

def micro (d : Nat) : Trap := { v := 8, detail := d }

/-- R252: a buffered write takes its place in the state. -/
def commitOne (u : UCtx) (c : Ctx) (b : Buf) : Ctx :=
  match b with
  | .o1 v => writeMem c u.h (u.loc.getD .outside) (v.setWidth 64)
  | .st a size v => accWrite c a size (v.setWidth 64)
  | .crc v => { c with s := { c.s with cpu := { c.s.cpu with crcacc := v } } }
  | .setp v => { c with s := { c.s with cpu := setPred c.s.cpu (fld u.h.x 0 3) v } }

/-- What LD sees: the state with the buffered writes in it. -/
def viewOf (u : UCtx) (m : Micro) : Ctx := m.buf.foldl (commitOne u) m.c

/-- R252: CRCACC as the buffer has it. -/
def crcOf (m : Micro) : W32 :=
  m.buf.foldl (fun a b => match b with
    | .crc v => v
    | _ => a) m.c.s.cpu.crcacc

/-- R250: a source selector. -/
def selGet (u : UCtx) (m : Micro) (imm : W32) (i : Nat) : Except Trap W32 :=
  if i < 8 then .ok (m.t.getD i 0)
  else if i < 11 then .ok (u.vals.getD (i - 8) 0)
  else if i < 14 then .ok (u.adrs.getD (i - 11) 0)
  else if i = 14 then .ok imm
  else if i = 15 then .ok (u.h.x.setWidth 32)
  else if i = 16 then .ok m.c.s.cpu.crcacc
  else if i = 17 then .ok ((m.up ||| 1).setWidth 32)
  else if i = 18 then .ok 0
  else .error (micro 0)

/-- R252, R253: a write enters the buffer of four. -/
def bufPut (m : Micro) (b : Buf) : Except Trap Micro := if 4 ≤ m.buf.length then .error (micro 1) else .ok { m with buf := m.buf ++ [b] }

/-- R253: operand 1 in the register block outside A0 to A15. -/
def blockedO1 (l : Loc) : Bool :=
  match l with
  | .mem a => decide (0x402040 ≤ a) && decide (a < 0x402200)
  | _ => false

/-- R250, R253: a write of O1. -/
def o1Put (u : UCtx) (m : Micro) (v : W32) : Except Trap Micro :=
  match u.dst, u.loc with
  | true, some l =>
    if blockedO1 l then .error (micro 3)
    else match l with
      | .mem a =>
        match accessFault m.c.s a (szBytes u.h.sz) with
        | some d => .error { v := 2, detail := d, adr := some (BitVec.ofNat 32 a) }
        | none => bufPut m (.o1 v)
      | _ => bufPut m (.o1 v)
  | _, _ => .error (micro 4)

/-- R250: a destination selector. -/
def selPut (u : UCtx) (m : Micro) (i : Nat) (v : W32) : Except Trap Micro :=
  if i < 8 then .ok { m with t := upd m.t i (fun _ => v) }
  else if i = 8 then o1Put u m v
  else if i = 16 then bufPut m (.crc v)
  else if i = 18 then .ok m
  else .error (micro 0)

/-- R251: the two-source micro-operations 0x02 to 0x0E. -/
def microAlu (op : Nat) (a b : W32) : W32 :=
  match op with
  | 2 => a + b
  | 3 => a - b
  | 4 => a &&& b
  | 5 => a ||| b
  | 6 => a ^^^ b
  | 7 => a <<< (b.toNat % 64)
  | 8 => a >>> (b.toNat % 64)
  | 9 => a.sshiftRight (b.toNat % 64)
  | 10 => if b.toInt < a.toInt then b else a
  | 11 => if a.toInt < b.toInt then b else a
  | 12 => if b.toNat < a.toNat then b else a
  | 13 => if a.toNat < b.toNat then b else a
  | _ => a * b

/-- R251: CMP's conditions. -/
def microCmp (cc : Nat) (a b : W32) : Bool := if cc < 6 then compare false cc a b else if cc = 6 then decide (a.toNat < b.toNat) else decide (b.toNat ≤ a.toNat)

def inBlock (a : Nat) : Bool := decide (0x402000 ≤ a) && decide (a < 0x402200)

/-- R251, R252: LD: the value as the buffered stores leave it; the access is made once. -/
def microLd (u : UCtx) (m : Micro) (a size : Nat) (zero : Bool) : Except Trap (W32 × Micro) :=
  if inBlock a then .error (micro 3)
  else match accRead { viewOf u m with got := [] } a size with
    | .error t => .error t
    | .ok x =>
      let c1 := match accRead { m.c with got := [] } a size with
        | .ok y => y.2
        | .error _ => m.c
      .ok (if zero then x.1.setWidth 32 else BitVec.ofInt 32 (signed x.1.toNat (8 * size)), { m with c := c1 })

/-- R251, R253: ST, checked and buffered; an address that faults goes before a buffer that is full (DEDUCED, log 137). -/
def microSt (m : Micro) (a size : Nat) (v : W32) : Except Trap Micro :=
  if inBlock a then .error (micro 3)
  else match accessFault m.c.s a size with
    | some d => .error { v := 2, detail := d, adr := some (BitVec.ofNat 32 a) }
    | none => bufPut m (.st a size v)

/-- R250: the fields of a micro-op. -/
structure MicroOp where
  mop : Nat
  un : Bool
  ug : Nat
  dst : Nat
  sa : Nat
  sb : Nat
  aux : Nat
  imm : W32

def fields (w : BitVec 64) : MicroOp :=
  { mop := fld w 58 6, un := bit w 57, ug := fld w 55 2, dst := fld w 50 5, sa := fld w 45 5, sb := fld w 40 5
    aux := fld w 32 8, imm := w.setWidth 32 }

/-- R250: the micro-guard; UP0 is always true. -/
def microGuard (m : Micro) (o : MicroOp) : Bool := (o.ug == 0 || bit m.up o.ug) != o.un

/-- R251: the micro-operations with a destination value: from sources a and b. -/
def microValue (o : MicroOp) (a b : W32) : W32 :=
  if o.mop = 1 then a
  else if o.mop = 0x13 then BitVec.ofNat 32 (reverseBits a.toNat (o.aux % 32 + 1))
  else if o.mop = 0x14 then BitVec.ofNat 32 (b2n (parityBit a.toNat 32))
  else if o.mop = 0x15 then BitVec.ofNat 32 ((residue a.toInt + residue b.toInt) % 65521)
  else microAlu o.mop a b

/-- R251: the micro-operations that read only SA. -/
def oneSource (mop : Nat) : Bool := mop == 1 || mop == 0x12 || mop == 0x13 || mop == 0x14

/-- R251: the memory address and access size of LD and ST; size 3 is reserved. -/
def sizeOf (code : Nat) : Except Trap Nat := if code = 3 then .error (micro 0) else .ok (2 ^ code)

/-- R251: LD, ST and CRC. -/
def microMem (u : UCtx) (m : Micro) (o : MicroOp) (a b : W32) : Except Trap Micro := do
  if o.mop = 0x10 then
    let size ← sizeOf (o.aux % 4)
    let x ← microLd u m (a + b).toNat size (o.aux.testBit 2)
    selPut u x.2 o.dst x.1
  else if o.mop = 0x11 then
    let size ← sizeOf (o.aux % 4)
    let v ← selGet u m o.imm o.dst
    microSt m (a + b).toNat size v
  else
    let size ← sizeOf (o.aux / 4 % 4)
    bufPut m (.crc (crcWord m.c.s.cpu (o.aux % 4) size (crcOf m) a))

/-- R251: one micro-op other than END whose guard is true; `e` is already the next entry. A reserved selector in a field that the micro-op does not use
is not reached (R253; DEDUCED, log 143). -/
def microOp (u : UCtx) (m : Micro) (o : MicroOp) : Except Trap Micro := do
  if o.mop = 0x16 then
    let t := u.start + o.aux % 32
    if t > 511 then throw (micro 2) else return { m with e := t }
  else if o.mop = 0x17 then
    if u.pw then bufPut m (.setp (o.aux % 4 == 0 || bit m.up (o.aux % 4))) else throw (micro 4)
  else if o.mop ≥ 0x18 then throw (micro 0)
  else
    let a ← selGet u m o.imm o.sa
    let b ← if oneSource o.mop then pure 0 else selGet u m o.imm o.sb
    if o.mop = 0x0F then
      return { m with up := if o.dst % 4 = 0 then m.up else putBit m.up (o.dst % 4) (microCmp (o.aux % 8) a b) }
    else if o.mop = 0x10 ∨ o.mop = 0x11 ∨ o.mop = 0x12 then microMem u m o a b
    else selPut u m o.dst (microValue o a b)

/-- R251 to R253: micro-ops until END; at most 32 of them. -/
def microRun (u : UCtx) : Nat → Micro → Except Trap Micro
  | 0, _ => .error (micro 2)
  | fuel + 1, m =>
    if m.e > 511 then .error (micro 2)
    else
      let o := fields (microEntry m.c.s m.e)
      let m1 := { m with e := m.e + 1, ran := m.ran + 1 }
      if !(microGuard m o) then microRun u fuel m1
      else if o.mop = 0 then .ok m
      else match microOp u m1 o with
        | .error t => .error t
        | .ok m2 => microRun u fuel m2

/-- R252: an operand is read at issue, or holds nothing defined (log 3). -/
def operandVal (s0 : State) (h : IHdr) (read : Bool) (free : Nat) (c : Ctx) (o : Opd) (i : Nat) : Except Trap (W32 × Ctx) :=
  if read then readOpd s0 h c o else .ok (Config.microFree free i, c)

/-- R250: AD: an operand's address; 0 for IMM, IMMX and AREG. -/
def operandAdr (free : Nat) (l : Loc) : W32 :=
  match l with
  | .mem a => BitVec.ofNat 32 a
  | .outside => Config.outsideAddr free
  | _ => 0

/-- R252: the operands, in order: values and addresses. -/
def operands (s0 : State) (h : IHdr) (readFirst : Bool) (free : Nat) : Nat → List Opd → Ctx → Except Trap (List W32 × List W32 × Ctx)
  | i, [], c => .ok ((List.range (3 - i)).map (fun j => Config.microFree free (8 + i + j)), (List.range (3 - i)).map (fun j => Config.microFree free (16 + i + j)), c)
  | i, o :: t, c =>
    match locate s0 o with
    | .error e => .error e
    | .ok l =>
      match operandVal s0 h (readFirst || decide (0 < i)) free c o (8 + i) with
      | .error e => .error e
      | .ok x =>
        match operands s0 h readFirst free (i + 1) t x.2 with
        | .error e => .error e
        | .ok y => .ok (x.1 :: y.1, operandAdr free l :: y.2.1, y.2.2)

/-- R217, R252: O1 in AREG mode is written after every register update. -/
def lastO1 (bs : List Buf) : Option W32 :=
  bs.foldl (fun a b => match b with
    | .o1 v => some v
    | _ => a) none

/-- R252: a buffered write that others see: its address, size and value. One of operand 1 into the register block is not (R253). -/
def bufStore (u : UCtx) (b : Buf) : Option (Nat × Nat × W32) :=
  match b, u.loc with
  | .st a size v, _ => some (a, size, v)
  | .o1 v, some (.mem a) => if inBlock a then none else some (a, szBytes u.h.sz, v)
  | _, _ => none

/-- R252, R298: the buffer commits in order: a store behind a PASTART that is held waits with it. -/
def commitNext (u : UCtx) (c : Ctx) (b : Buf) : Ctx :=
  match c.s.pa.held.isSome, bufStore u b with
  | true, some x =>
    { c with s := { c.s with pa := { c.s.pa with late := c.s.pa.late ++ [x] } }
             writes := x.1 :: c.writes, periph := c.periph + b2n ((regionOf x.1).any isPeripheral) }
  | _, _ => commitOne u c b

/-- R257: a HALT that the instruction itself has written waits for its stores too. -/
def haltWaits (s : State) : State :=
  if paWaits s && s.cpu.halt && s.cpu.st == .halted then { s with cpu := { s.cpu with st := .running } } else s

/-- R252, R254: the buffer commits, the operands' register updates take place. -/
def userCommit (u : UCtx) (ops : List Opd) (issue : List Nat) (m : Micro) : Done :=
  let c0 := m.buf.foldl (commitNext u) m.c
  let c1 := { c0 with s := haltWaits c0.s }
  let cost := 1 + m.ran + (m.buf.length - 1)
  if c1.restart then { c := { c1 with reads := issue, writes := c1.writes.take 1 }, cost := cost }
  else
    (let s1 := ops.foldl (opdUpdate (szBytes u.h.sz)) c1.s
     let s2 := match lastO1 m.buf, u.loc with
       | some v, some l => writeReg s1 u.h l (v.setWidth 64)
       | _, _ => s1
     { c := { c1 with s := s2, reads := issue, writes := c1.writes.take 1 }, cost := cost })

/-- R252: a user instruction whose decode entry is `e`. -/
def userBody (s : State) (h : IHdr) (e : W32) (ops : List Opd) : Except Trap Done := do
  let free := (draw s).1
  let s0 := (draw s).2
  let dst := bit e 12
  let x ← operands s0 h (!dst || bit e 14) free 0 ops { s := s0 }
  let loc ← match ops.head? with
    | none => pure none
    | some o => (locate s0 o).map some
  let u : UCtx := { h := h, start := fld e 0 9, dst := dst, pw := bit e 13, vals := x.1, adrs := x.2.1, loc := loc }
  let m ← microRun u 32 { e := fld e 0 9, t := (List.range 8).map (Config.microFree free), up := 1, buf := [], c := x.2.2, ran := 0 }
  return userCommit u ops x.2.2.reads m

/-- R219: the checks of a user instruction. -/
def userCheck (h : IHdr) (e : W32) (ops : List Opd) : Option Trap :=
  if !(bit e 9) then some (illegal 5)
  else firstTrap (headCheck (notD h) true true :: ops.mapIdx (fun i o => if i = 0 && bit e 12 then destCheck o else srcCheck o))

/-- USER_INSTRUCTION (R252): opcode 0xF0 + n. The operands are as many as the decode table says; otherwise the words spell
another instruction. -/
def execUserInstruction (n : Fin 16) (h : IHdr) (ops : List Opd) (s : State) : Res :=
  .next (
    let e := decodeEntry s n
    if bit e 9 && ops.length != fld e 10 2 then s
    else carudStep s h (lenOf ops) (userCheck h e ops) (userBody s h e ops))

end Sys2Proof.Machine
end

