-- ==== Sys2Proof/Machine/CarudEvents.lean ====
section
/-! DEFINITION. Accesses of Carud that the table lists as commands of their own: TIMER (R246), MQk (R227, R228), RSBOT (R241),
CYCLO (R248), SCRATCH (R208). They take no time of their own (log 2). -/
namespace Sys2Proof.Machine

/-- What an access of Carud does while it runs. -/
def carudAccess (s : State) (f : State → State) : State := if carudActs s then f s else lateDrain s

/-- PASTART (R297): Carud writes PASTART. -/
def execPastart (v : W16) (s : State) : Res := .next (carudAccess s (fun s => pastartWrite s v))

/-- PADATA (R297): Carud writes PADATA. -/
def execPadata (v : W16) (s : State) : Res := .next (carudAccess s (fun s => padataWrite s v))

/-- RXRTAIL_WRITE (R331, R340): Carud frees receive-ring slots. -/
def execRxrtailWrite (v : W16) (s : State) : Res := .next (carudAccess s (fun s => plainWrite s 0x150B v))

/-- TIMER_EXPIRE (R246): the timer reaches 0. -/
def execTimerExpire (s : State) : Res :=
  .next (
    if coreRuns s && s.cpu.timer != 0 then { s with cpu := { s.cpu with timer := 0, timerClk := 0, evt := putBit s.cpu.evt 7 true } }
    else s)

/-- TIMER_WRITE (R246). -/
def execTimerWrite (v : W32) (s : State) : Res := .next (carudAccess s (fun s => timerPut s v))

/-- MQ_WRITE (R227, R228): a direct write of MQk or of a half. -/
def execMqWrite (k : Fin 4) (v : MqPart) (s : State) : Res :=
  .next (carudAccess s (fun s => match v with
    | .full x => mqPut s k x
    | .low x => mqHalf s k false x
    | .high x => mqHalf s k true x))

/-- RSBOT_READ (R241): the oldest entry is removed. -/
def execRsbotRead (s : State) : Res := .next (carudAccess s rsbotTake)

/-- RSBOT_WRITE (R241). -/
def execRsbotWrite (v : W32) (s : State) : Res := .next (carudAccess s (fun s => rsbotPut s v))

/-- CYCLO_READ (R248): CYCHI is latched. -/
def execCycloRead (s : State) : Res := .next (carudAccess s cycloTake)

/-- SCRATCH_WRITE (R208): a Carud write of SCRATCH. -/
def execScratchWrite (v : W16) (s : State) : Res := .next (carudAccess s (fun s => scratchCarud s v))

end Sys2Proof.Machine
end

