-- ==== Sys2Proof/Machine/Firmware.lean ====
section
/-! DEFINITION. The event trap (R245), and the base firmware's work of a frame within it (R137 to R145, R373): tracking,
classification, reports, the latest-state area, and stitching in a manager. -/
namespace Sys2Proof.Machine

/-! ### Tracking (R137), for contacts and for objects -/

/-- What a frame shows of one region or object: pass (0 for an object), position, PEAK, AREA, class, STALE. -/
structure Point where
  pass : Nat
  x : Int
  y : Int
  peak : W16
  area : Nat
  cls : Nat
  stale : Bool
  deriving DecidableEq, Repr

/-- R137, R145: the parameters of the tracking. -/
structure TrackCfg where
  gate : Nat
  new : Nat
  lost : Nat
  hold : Nat
  most : Nat
  lastId : Nat
  beat : W32
  /-- Passes that are STALE as a whole in this frame. -/
  frozen : Nat → Bool
  /-- The draw from which ties are broken (log 3). -/
  tie : Nat

/-- A possible pair: old index, point index, squared distance. -/
abbrev Pair := Nat × Nat × Int

/-- R137: the pairs within the gate, from predicted positions (pass, x, y). -/
def pairsOf (gate : Nat) (olds : List (Nat × Int × Int)) (ps : List Point) : List Pair :=
  olds.zipIdx.flatMap (fun o => ps.zipIdx.filterMap (fun q =>
    let dx := q.1.x - o.1.2.1
    let dy := q.1.y - o.1.2.2
    if o.1.1 = q.1.pass ∧ dx * dx + dy * dy ≤ (gate : Int) * gate then some (o.2, q.2, dx * dx + dy * dy) else none))

/-- R137: the nearest pair; which of two at the same distance goes first is a free value. -/
def nearest (tie : Nat) : List Pair → Option Pair
  | [] => none
  | p :: l =>
    match nearest tie l with
    | none => some p
    | some q =>
      if p.2.2 < q.2.2 ∨ (p.2.2 = q.2.2 ∧ Config.tieBreak tie (p.1 * 4096 + p.2.1) (q.1 * 4096 + q.2.1)) then some p else some q

/-- R137: pairs taken in ascending order of distance. -/
def matching (tie : Nat) : Nat → List Pair → List (Nat × Nat)
  | 0, _ => []
  | n + 1, ps =>
    match nearest tie ps with
    | none => []
    | some q => (q.1, q.2.1) :: matching tie n (ps.filter (fun r => r.1 != q.1 && r.2.1 != q.2.1))

/-- What the firmware reports of a track: the track after the frame, its STATE, and whether it goes on. -/
structure Shown where
  t : Track
  state : Nat
  live : Bool

/-- R138: the class changes once the new one has held for CLASSHOLD consecutive frames. -/
def classStep (hold : Nat) (t : Track) (cls : Nat) : Track :=
  if cls = t.cls then { t with held := 0 }
  else
    (let n := if cls = t.newCls then t.held + 1 else 1
     if hold ≤ n then { t with cls := cls, newCls := cls, held := 0 } else { t with newCls := cls, held := n })

def stateOf (dx dy : Int) : Nat := if Config.fwStill dx dy then 2 else 1

/-- R139: beats since DOWN, in units of 16. -/
def ageUnits (beat : W32) (t : Track) : Nat := (beat - t.born).toNat / 16

/-- R382: AGE stays at 255 once it is there. -/
def trackAge (c : TrackCfg) (t : Track) : Track := { t with old := t.old || decide (255 ≤ ageUnits c.beat t) }

/-- R137 to R139: a track with its point, or without one, which ends the run of a class that was to replace its own (R138). -/
def trackStep (c : TrackCfg) (t0 : Track) (p : Option Point) : Shown :=
  let t := trackAge c t0
  match p with
  | some q =>
    let t1 := classStep (max 1 c.hold) { t with peak := q.peak, area := q.area, missed := 0 } q.cls
    if q.stale then { t := t1, state := 4, live := true }
    else { t := { t1 with x := q.x, y := q.y, px := t.x, py := t.y }, state := stateOf (q.x - t.x) (q.y - t.y), live := true }
  | none =>
    if c.frozen t.pass then { t := { t with held := 0 }, state := 4, live := true }
    else if c.lost ≤ t.missed + 1 then { t := { t with missed := t.missed + 1, held := 0 }, state := 3, live := false }
    else { t := { t with missed := t.missed + 1, held := 0 }, state := stateOf 0 0, live := true }

/-- R137: the next ID after `last`, from 1 to c.lastId, that is not in use. -/
def nextId (c : TrackCfg) (used : List Nat) (last : Nat) : Nat :=
  (((List.range c.lastId).map (fun i => (last + i) % c.lastId + 1)).find? (fun i => !(used.contains i))).getD 0

/-- The tracks, the regions seen too few times, and the last ID given. -/
structure Tracker where
  tracks : List Shown
  newcomers : List Newcomer
  last : Nat

/-- R137: an unmatched region: a new track after TRKNEW consecutive frames, while fewer than the most are tracked. -/
def taken (c : TrackCfg) (k : Tracker) (q : Point) (old : Option Newcomer) : Tracker :=
  let n : Newcomer := match old with
    | some o => { o with x := q.x, y := q.y, px := o.x, py := o.y, count := o.count + 1 }
    | none => ⟨q.pass, q.x, q.y, q.x, q.y, 1⟩
  if c.new ≤ n.count ∧ (k.tracks.filter (fun s => s.live)).length < c.most then
    (let id := nextId c ((k.tracks.filter (fun s => s.live)).map (fun s => s.t.id)) k.last
     { tracks := k.tracks ++ [{ t := ⟨q.pass, id, q.x, q.y, q.x, q.y, q.cls, q.cls, 0, q.peak, q.area, c.beat, 0, false⟩, state := if q.stale then 4 else 0, live := true }]
       newcomers := k.newcomers, last := id })
  else { k with newcomers := k.newcomers ++ [n] }

/-- R137: one frame of tracking. -/
def trackFrame (c : TrackCfg) (ts : List Track) (ns : List Newcomer) (last : Nat) (ps : List Point) : Tracker :=
  let m := matching c.tie ps.length (pairsOf c.gate (ts.map (fun t => (t.pass, 2 * t.x - t.px, 2 * t.y - t.py))) ps)
  let shown := ts.zipIdx.map (fun e => trackStep c e.1 ((m.find? (fun q => q.1 == e.2)).bind (fun q => ps[q.2]?)))
  let left := (ps.zipIdx.filter (fun e => !(m.any (fun q => q.2 == e.2)))).map Prod.fst
  let m2 := matching (c.tie + 1) left.length (pairsOf c.gate (ns.map (fun n => (n.pass, 2 * n.x - n.px, 2 * n.y - n.py))) left)
  left.zipIdx.foldl (fun k e => taken c k e.1 ((m2.find? (fun q => q.2 == e.2)).bind (fun q => ns[q.1]?)))
    { tracks := shown, newcomers := ns.filter (fun n => c.frozen n.pass), last := last }

/-! ### Regions of the MUTUAL passes (R122, R138, R373) -/

def fwParam (s : State) (i lo len : Nat) : Nat := rf (reg s) (0x1800 + i) lo len

/-- The area's header word k. -/
def headWord (s : State) (p k : Nat) : W32 := rd32 s (passBase s p + 4 * k)

/-- R139, R373: the pass was skipped or fenced in this frame, or a row's CRC fails. -/
def passFrozen (s : State) (p : Nat) : Bool :=
  bit (headWord s p 1) 24 || bit (headWord s p 1) 25 || (getPass s p).pipeFen || bit s.mem.granFen (gbase (reg s) (actProg s) p / 0x10000)
    || !((crcBad s p (b2n (bit (headWord s p 1) 20))).isEmpty)

/-- R138: the class of a region from its record, its nodes' flags and the pass. -/
def classOf (s : State) (p : Nat) (w0 w1 : W32) (marked : Nat) : Nat :=
  let area := fld w1 0 16
  if area ≤ 2 * marked ∨ (bit w0 29 ∧ area ≤ 2) then 7
  else if area ≤ 2 * fld w1 16 8 then 4
  else if bit w0 31 then 5
  else if rbit (reg s) (pipeKey (actProg s) p 1) 15 then 6
  else if (fld w0 16 12 : Int) < fwParam s 2 0 12 then 3
  else if fwParam s 3 8 8 ≤ area then 1
  else if area ≤ fwParam s 3 0 8 then 0
  else 2

/-- A region of pass p as the firmware sees it: its peak delta, and its point. -/
def regionPoint (s : State) (p img i : Nat) (rs : List (List Nat)) : Int × Point :=
  let cols := colCount (reg s) (actProg s) p
  let w := fun (k : Nat) => rd32 s (passBase s p + regionOff (reg s) (actProg s) p + 16 * i + 4 * k)
  let pk := fld (w 0) 0 8 * cols + fld (w 0) 8 8
  let nodes := (rs.find? (fun g => peakNode s p img g == pk)).getD []
  let marked := (nodes.filter (fun n => bit (deltaWord s p img n) 12 || bit (deltaWord s p img n) 14)).length
  (signed (fld (w 0) 16 12) 12,
   { pass := p, x := fld (w 3) 0 16, y := fld (w 3) 16 16, peak := deltaWord s p img pk, area := fld (w 1) 0 16
     cls := classOf s p (w 0) (w 1) marked, stale := bit (w 1) 24 })

/-- R109: what the firmware reads of a MUTUAL pass's area: its header, row checks, delta image and region table. -/
def fwReads (s : State) (p : Nat) : List (Nat × Nat) :=
  let r := reg s
  let b := actProg s
  let base := gbase r b p
  [(base, 64), (base + deltaOff r b p (b2n (bit (headWord s p 1) 20)) 0, 2 * nodeCount r b p), (base + checkOff r b p 0, 12 * rowCount r b p),
   (base + regionOff r b p, if isMutual r b p then 512 else 0)]

/-- R109, R209: the firmware reads the areas that are not fenced; an uncorrectable word fences its bank. -/
def fwRead (s : State) : State :=
  ((passList (reg s) (actProg s)).filter (fun p => passType (reg s) (actProg s) p == 4 || isMutual (reg s) (actProg s) p)).foldl (fun s p =>
    if (getPass s p).pipeFen then s else (fwReads s p).foldl (fun s x => granRead s x.1 x.2) s) s

/-- The regions of a MUTUAL pass in this frame. -/
def passPoints (s : State) (p : Nat) : List (Int × Point) :=
  if passFrozen s p then []
  else
    (let img := b2n (bit (headWord s p 1) 20)
     let rs := regionsOf s p img (getPass s p).doneCand []
     (List.range (min 32 (fld (headWord s p 5) 0 6))).map (fun i => regionPoint s p img i rs))

def insertPoint (e : Int × Point) : List (Int × Point) → List (Int × Point)
  | [] => [e]
  | x :: t => if x.1 < e.1 then e :: x :: t else x :: insertPoint e t

/-- R137: MAXC. -/
def maxContacts (s : State) : Nat := max 1 (min 40 (fwParam s 4 8 6))

/-- Every region of every MUTUAL pass, highest peaks first. -/
def allPoints (s : State) : List Point :=
  (((passList (reg s) (actProg s)).filter (isMutual (reg s) (actProg s))).flatMap (passPoints s)).foldl (fun l e => insertPoint e l) [] |>.map Prod.snd

/-! ### Records and parcels (R139, R140, R143) -/

/-- R139: AGE. -/
def ageOf (s : State) (t : Track) : Nat := if t.old then 255 else min 255 (ageUnits s.beat.no t)

/-- R139: a contact record. -/
def contactRecord (s : State) (k : Shown) : List Byte :=
  [BitVec.ofNat 8 k.t.id, BitVec.ofNat 8 (16 * k.t.cls + k.state)] ++ be16 (BitVec.ofInt 16 k.t.x) ++ be16 (BitVec.ofInt 16 k.t.y) ++ be16 k.t.peak
    ++ [BitVec.ofNat 8 (min 255 k.t.area), BitVec.ofNat 8 (ageOf s k.t), 0, 0]

/-- R143: an object record. -/
def objectRecord (s : State) (k : Shown) : List Byte :=
  (contactRecord s k).take 12 |>.set 10 0 |>.set 11 0 |>.append (be16 (w16 (k.t.id % 1024))
    ++ [BitVec.ofInt 8 (k.t.x / 65536), BitVec.ofInt 8 (k.t.y / 65536)])

/-- A list cut into pieces of n; an empty list is one empty piece. -/
def pieces {α : Type} (n : Nat) : Nat → List α → List (List α)
  | 0, l => [l]
  | k + 1, l => if l.length ≤ n then [l] else l.take n :: pieces n k (l.drop n)

/-- R140: a report parcel before its header: KIND, whether some record is STALE, and the records. -/
structure Report where
  kind : Nat
  stale : Bool
  recs : List (List Byte)

def reportsOf (kind n : Nat) (recs : List (Bool × List Byte)) : List Report :=
  (pieces n recs.length recs).map (fun l => { kind := kind, stale := l.any Prod.fst, recs := l.map Prod.snd })

/-- R140: the payload of the i-th parcel of a frame that has n. -/
def reportPayload (s : State) (ovf : Bool) (i n : Nat) (r : Report) : List Byte :=
  [BitVec.ofNat 8 r.kind, BitVec.ofNat 8 (b2n (i + 1 == n) + 2 * b2n ovf + 4 * b2n r.stale), BitVec.ofNat 8 r.recs.length, BitVec.ofNat 8 i]
    ++ be32 s.beat.no ++ r.recs.flatten

/-- R330, R283: a report goes to the uplink's mailbox, or in a manager to its Report Queue. -/
def reportSend (s : State) (payload : List Byte) : State :=
  let x := mkParcel s tyReport (ringAddr s) (frameQ s) payload
  if isManager s then handOver s false .firmware (packetBytes x) else sendUp s x

def sendReports (s : State) (ovf : Bool) (rs : List Report) : State :=
  rs.zipIdx.foldl (fun s e => reportSend s (reportPayload s ovf e.2 rs.length e.1)) s

/-! ### The latest-state area (R141) -/

/-- Bytes as register words, most significant byte first. -/
def wordsOf : List Byte → List W16
  | a :: b :: t => w16 (a.toNat * 256 + b.toNat) :: wordsOf t
  | _ => []

def putWords (s : State) (key : Nat) (ws : List W16) : State := (ws.zipIdx key).foldl (fun s e => plainWrite s e.2 e.1) s

/-- R141: LSSEQ increments around the write, so it has gone up by two; the area holds up to 40 records. -/
def lsWrite (s : State) (recs : List (List Byte)) : State :=
  let s1 := plainWrite s 0x2000 (stg s 0x2000 + 1)
  let s2 := putWords s1 0x2001 [slice s.beat.no 0, slice s.beat.no 1, w16 (min 40 recs.length)]
  let s3 := putWords s2 0x2008 ((recs.take 40).flatMap wordsOf)
  plainWrite s3 0x2000 (stg s3 0x2000 + 1)

/-- R141: the object table. -/
def objWrite (s : State) (recs : List (List Byte)) : State :=
  putWords (plainWrite s 0x21FF (w16 (min 1024 recs.length))) 0x2200 ((recs.take 1024).flatMap wordsOf)

/-! ### Stitching (R142) -/

/-- R139, R142: the contacts of a report's records; a contact that is UP is over. -/
def parseContacts (bs : List Byte) (n : Nat) : List Contact :=
  (List.range n).filterMap (fun i =>
    let r := (bs.drop (8 + 12 * i)).take 12
    if (byteAt r 1).toNat % 16 = 3 then none
    else some { cls := (byteAt r 1).toNat / 16, x := beAt r 2 2, y := beAt r 4 2, peak := w16 (beAt r 6 2), area := (byteAt r 8).toNat })

/-- R142: a device's newest report; parcels of one beat belong together. -/
def newestPut (l : List Newest) (d : BitVec 9) (beat : W32) (cs : List Contact) : List Newest :=
  match l.find? (fun e => e.dev == d) with
  | none => l ++ [⟨d, beat, cs⟩]
  | some _ => l.map (fun e => if e.dev != d then e else if e.beat = beat then { e with contacts := e.contacts ++ cs } else ⟨d, beat, cs⟩)

/-- R331: the parcel in slot h of the receive ring. -/
def slotParcel (s : State) (h : Nat) : Parcel :=
  let a := dataBase + 16 * rf (reg s) 0x1509 0 13 + 272 * h
  parseParcel ((List.range ((rd16 s (a + 2)).toNat - 4)).map (fun i => rd8 s (a + 4 + i)))

/-- R142: a CONTACT report of a device. -/
def reportTake (l : List Newest) (p : Parcel) : List Newest :=
  newestPut l p.src (BitVec.ofNat 32 (beAt p.payload 4 4)) (parseContacts p.payload (byteAt p.payload 2).toNat)

/-- R142, R331: the firmware reads the receive ring until it is empty. -/
def ringDrain (s : State) : Nat → State
  | 0 => s
  | n + 1 =>
    let t := rf (reg s) 0x150B 0 9
    if rf (reg s) 0x1508 0 9 = 0 ∨ t = s.lnk.head.toNat then s
    else
      (let p := slotParcel s t
       let s1 := if p.typ = tyReport ∧ byteAt p.payload 0 = 1 then
           { s with fw := { s.fw with newest := reportTake s.fw.newest p } }
         else s
       ringDrain (plainWrite s1 0x150B (w16 ((t + 1) % rf (reg s) 0x1508 0 9))) n)

/-- R145: the placement of device a. -/
def placed (s : State) (a : Nat) : Bool := rbit (reg s) (0x6001 + 4 * a) 15

/-- R142: a contact of device a in system coordinates: swapped, mirrored across the patch, moved by the origin. The extent of the mirror on an axis is
the same with and without the swap (DESIGN CHOICE, log 96). -/
def toSystem (s : State) (a : Nat) (c : Contact) : Contact :=
  let k := 0x6000 + 4 * a
  let o := fun (i : Nat) => rbit (reg s) (k + 1) (8 + i)
  let x0 := if o 0 then c.y else c.x
  let y0 := if o 0 then c.x else c.y
  let x1 := if o 1 then Config.patchSpan a false - x0 else x0
  let y1 := if o 2 then Config.patchSpan a true - y0 else y0
  { c with x := x1 + (rf (reg s) k 0 16 + 65536 * rf (reg s) (k + 1) 0 8 : Nat), y := y1 + (rf (reg s) (k + 2) 0 16 + 65536 * rf (reg s) (k + 3) 0 8 : Nat) }

/-- A contribution to an object: device, beat of its report, contact in system coordinates. -/
abbrev Contribution := BitVec 9 × W32 × Contact

def contributions (s : State) : List Contribution :=
  (s.fw.newest.filter (fun e => placed s e.dev.toNat)).flatMap (fun e => e.contacts.map (fun c => (e.dev, e.beat, toSystem s e.dev.toNat c)))

/-- R142: contacts of different devices within STITCHD of each other. -/
def stitches (d : Nat) (a b : Contribution) : Bool :=
  a.1 != b.1 && decide ((a.2.2.x - b.2.2.x) * (a.2.2.x - b.2.2.x) + (a.2.2.y - b.2.2.y) * (a.2.2.y - b.2.2.y) ≤ (d : Int) * d)

def growObjects (d : Nat) (os : List (List Contribution)) (c : Contribution) : List (List Contribution) :=
  let near := os.filter (fun g => g.any (stitches d c))
  let away := os.filter (fun g => !(g.any (stitches d c)))
  (near.flatten ++ [c]) :: away

/-- R142: a weighted mean; rounding is a free value where it is no whole number. -/
def fwMean (sum : Int) (n : Nat) : Int := if n = 0 then 0 else sum / n + (if sum % n ≠ 0 ∧ Config.fwRoundUp sum n then 1 else 0)

/-- R142: the object that some contributions form. The largest PEAK is that of the highest delta: the flags in the delta word (R116, R139) do not
count (DESIGN CHOICE, log 126). -/
def objectPoint (s : State) (g : List Contribution) : Point :=
  let area := g.foldl (fun a c => a + c.2.2.area) 0
  let top := g.foldl (fun a c => if deltaVal a.2.2.peak < deltaVal c.2.2.peak then c else a) (g.headD (0, 0, ⟨0, 0, 0, 0, 0⟩))
  let age := g.foldl (fun a c => min a (s.beat.no - c.2.1).toNat) (2 ^ 32)
  { pass := 0, x := fwMean (g.foldl (fun a c => a + c.2.2.area * c.2.2.x) 0) area, y := fwMean (g.foldl (fun a c => a + c.2.2.area * c.2.2.y) 0) area
    peak := top.2.2.peak, area := min 255 area, cls := top.2.2.cls, stale := decide (fwParam s 6 0 8 < age) }
where deltaVal (w : W16) : Int := signed w.toNat 12

/-! ### The frame -/

/-- The tracking of contacts (R137, R138). -/
def contactCfg (s : State) : TrackCfg :=
  { gate := fwParam s 0 0 16, new := fwParam s 1 0 8, lost := fwParam s 1 8 8, hold := fwParam s 4 0 4, most := maxContacts s
    lastId := 255, beat := s.beat.no, frozen := passFrozen s, tie := s.beat.free }

/-- The tracking of objects (R142). -/
def objectCfg (s : State) : TrackCfg := { contactCfg s with hold := 0, most := 1023, lastId := 1023, frozen := fun _ => false }

def liveTracks (k : Tracker) : List Track := (k.tracks.filter (fun t => t.live)).map (fun t => t.t)

/-- R137 to R139: the device's own contacts; answers what is shown and OVF. -/
def contactsFrame (s : State) : State × List Shown × Bool :=
  let all := allPoints s
  let k := trackFrame (contactCfg s) s.fw.tracks s.fw.newcomers s.fw.lastId (all.take (maxContacts s))
  ({ (draw (draw s).2).2 with fw := { s.fw with tracks := liveTracks k, newcomers := k.newcomers, lastId := k.last } }, k.tracks,
    decide (maxContacts s < all.length))

/-- R142: a manager's objects; answers what is shown. No more than 1,023 are tracked, the IDs there are; which go untracked beyond that the manual
does not say: here those whose contacts come later (DESIGN CHOICE, log 110). -/
def objectsFrame (s : State) (own : List Shown) : State × List Shown :=
  let mine := (own.filter (fun k => k.live)).map (fun k => (⟨k.t.cls, k.t.x, k.t.y, k.t.peak, min 255 k.t.area⟩ : Contact))
  let s1 := ringDrain s 512
  let s2 := { s1 with fw := { s1.fw with newest := newestPut (s1.fw.newest.filter (fun e => e.dev != ownAddr s1)) (ownAddr s1) s1.beat.no mine } }
  let os := ((contributions s2).foldl (growObjects (fwParam s2 5 0 16)) []).map (objectPoint s2)
  let k := trackFrame (objectCfg s2) s2.fw.objects s2.fw.newObjects s2.fw.lastOid os
  ({ (draw (draw s2).2).2 with fw := { s2.fw with objects := liveTracks k, newObjects := k.newcomers, lastOid := k.last } }, k.tracks)

/-- R126, R107: the key groups' current keys in a KEY pass's header. -/
def keyBytes (s : State) (p : Nat) : List Byte := (List.range 8).map (fun k => BitVec.ofNat 8 (fld (headWord s p (6 + k / 4)) (8 * (k % 4)) 8))

/-- R140: the records of the groups of pass p whose state has changed. -/
def keyRecords (s : State) (p : Nat) : List (Bool × List Byte) :=
  ((keyBytes s p).zip (s.fw.keys.getD p [])).zipIdx.filterMap (fun e =>
    if e.1.1 = e.1.2 then none else some (false, [BitVec.ofNat 8 e.2, e.1.1, BitVec.ofNat 8 (b2n (e.1.1 != 0xFF)), 0]))

/-- The KEY passes that can be read in this frame. -/
def keyPasses (s : State) : List Nat :=
  if fwParam s 7 1 1 = 0 then []
  else (passList (reg s) (actProg s)).filter (fun p => passType (reg s) (actProg s) p == 4 && !(passFrozen s p))

/-- R140: the KEY parcels of the frame. -/
def keyReports (s : State) : List Report :=
  ((keyPasses s).filter (fun p => !((keyRecords s p).isEmpty))).flatMap (fun p => reportsOf 3 8 (keyRecords s p))

def keysSeen (s : State) : State :=
  { s with fw := { s.fw with keys := (keyPasses s).foldl (fun l p => upd l p (fun _ => keyBytes s p)) s.fw.keys } }

/-- R114: in the frame after each hop of a pass the firmware issues RETRACK for it (PIPECMD). -/
def retrackHops (s : State) : State :=
  (passList (reg s) (actProg s)).foldl (fun s p => if (getPass s p).sinceHop = some 0 then pipeCmd s (w16 (p + 32)) else s) s

/-- R114, R137 to R143: the base firmware's work of one frame. -/
def firmwareFrame (s0 : State) : State :=
  let s := fwRead (retrackHops s0)
  let a := contactsFrame s
  let b := if isManager s then objectsFrame a.1 a.2.1 else (a.1, [])
  let s2 := b.1
  let crecs := a.2.1.map (fun k => (k.state == 4, contactRecord s2 k))
  let orecs := b.2.map (fun k => (k.state == 4, objectRecord s2 k))
  let contacts := if fwParam s2 7 0 1 = 1 ∧ (!crecs.isEmpty ∨ s2.fw.ended) then reportsOf 1 20 crecs else []
  let objects := if orecs.isEmpty then [] else reportsOf 2 15 orecs
  let s3 := lsWrite s2 (crecs.map Prod.snd)
  let s4 := if isManager s then objWrite s3 (orecs.map Prod.snd) else s3
  let s5 := sendReports s4 a.2.2 (contacts ++ objects ++ keyReports s4)
  let s6 := keysSeen s5
  { s6 with fw := { s6.fw with ended := a.2.1.any (fun k => k.state == 3) } }

/-- EVENT_TRAP (R245): the event trap is taken; `firmware` says that the base firmware stands in program RAM and does its work of a
frame in this trap (log 59). -/
def execEventTrap (firmware : Bool) (s : State) : Res :=
  .next (
    if carudActs s && eventDue s then
      (let s1 := eventTrap s
       if firmware && s1.cpu.st == .running then firmwareFrame s1 else s1)
    else s)

end Sys2Proof.Machine
end

