-- ==== Sys2Proof/Machine/Window.lean ====
section
/-! DEFINITION. The window: spaces, pages, memory halves and errors (R274 to R276), REMOTE access (R277 to R280, R328). -/
namespace Sys2Proof.Machine

/-! ### Errors and addresses (R275, R280) -/

/-- R280: each error sets ERRF. -/
def winErr (s : State) (e : BitVec 4) : State := { s with win := { s.win with err := e, errf := true } }

/-- R275: WINADR, and at its wrap PAGE, after a WINDAT access. -/
def winStep (s : State) : State :=
  if bit s.win.sel 8 then s
  else
    (let n := (winLin s + 1) % 0x1000000
     { s with win := { s.win with adr := w16 n, sel := (s.win.sel &&& 0xFF00) ||| w16 (n / 65536) } })

/-! ### Words of the spaces (R274, R276) -/

/-- R276: a memory word as stored, and whether it is uncorrectable; in Granary that fences the bank. -/
def loadWord (s : State) (a : Nat) : W32 × Bool × State :=
  let b := a / 4 * 4
  if s.mem.bad.contains (a / 4) then (rd32 s b, true, if granBase ≤ b then bankFence s ((b - granBase) / 0x10000) else s)
  else (rd32 s b, false, softFix s b 4)

/-- A memory word written whole, with valid check bits (R209). -/
def storeWord (s : State) (a : Nat) (v : W32) : State :=
  let s1 := wr32 s (a / 4 * 4) v
  { s1 with mem := { s1.mem with bad := s1.mem.bad.filter (fun w => w != a / 4), soft := s1.mem.soft.filter (fun w => w != a / 4) } }

/-- R276: a word with one half replaced. -/
def putHalf (v : W32) (odd : Bool) (h : W16) : W32 := if odd then (v &&& 0xFFFF) ||| (h.setWidth 32 <<< 16) else (v &&& 0xFFFF0000) ||| h.setWidth 32

/-- R276: a half committed by read-modify-write; not performed on an uncorrectable word. -/
def rmwHalf (s : State) (sp lin : Nat) (v : W16) : State :=
  let a := memAddr sp lin
  let x := loadWord s a
  if x.2.1 then winErr x.2.2 errEcc else storeWord x.2.2 a (putHalf x.1 (lin % 2 == 1) v)

/-- The words of CONFIG, MICRO, AUX and LOG, and what reading one changes. -/
def regRead (s : State) (sp lin : Nat) : W16 × State :=
  (regWordAt s sp lin, match sp with
    | 0 => if lin < 0x10000 then configRead s lin false else s
    | 4 => s
    | 5 => auxRead s lin false
    | _ => logSpaceRead s lin false)

/-- R255: MICRO takes writes while LOCK is 0. Bits [31:15] of a decode entry, given as 0, are kept as written (DEDUCED, log 136). -/
def microWrite (s : State) (lin : Nat) (v : W16) : State :=
  if s.pwr.lock || decide (microWords ≤ lin) then s else { s with cpu := { s.cpu with micro := sset zero16 s.cpu.micro lin v } }

/-- A write of CONFIG, MICRO, AUX or LOG. -/
def regWrite (s : State) (sp lin : Nat) (v : W16) : State :=
  match sp with
  | 0 => if lin < 0x10000 then configWrite s .host lin v else if lin < 0x18000 then bitmapWrite s (lin - 0x10000) v else s
  | 4 => microWrite s lin v
  | 5 => auxWrite s lin v
  | _ => s

/-- R276: a held even half that another access follows is committed, in every mode: it was accepted while the memory was awake (DESIGN CHOICE,
log 146). -/
def settle (s : State) : State :=
  match s.win.held with
  | none => s
  | some h => rmwHalf { s with win := { s.win with held := none } } h.2.1 h.1 h.2.2

/-- R276: a read of CODE, DATA or FRAME. -/
def memRead (s : State) (sp lin : Nat) : W16 × State :=
  let unlatched := { s with win := { s.win with latch := none } }
  match s.win.latch, loadWord unlatched (memAddr sp lin) with
  | some l, x =>
    if l.1 = lin ∧ l.2.1 = sp then (l.2.2, unlatched) else memLoad x
  | none, x => memLoad x
where
  memLoad (x : W32 × Bool × State) : W16 × State :=
    let s1 := if x.2.1 then winErr x.2.2 errEcc else x.2.2
    if lin % 2 = 0 then (halfOf x.1 false, { s1 with win := { s1.win with latch := some (lin + 1, sp, halfOf x.1 true) } })
    else (halfOf x.1 true, s1)

/-- R276: a write of CODE, DATA or FRAME: an even half is held, its odd half commits both. -/
def memPut (s : State) (sp lin : Nat) (v : W16) : State :=
  if lin % 2 = 0 then { settle s with win := { (settle s).win with held := some (lin, sp, v), latch := none } }
  else match s.win.held with
    | some h =>
      if h.1 + 1 = lin ∧ h.2.1 = sp then
        storeWord { s with win := { s.win with held := none, latch := none } } (memAddr sp lin) (putHalf (h.2.2.setWidth 32) true v)
      else rmwHalf { settle s with win := { (settle s).win with latch := none } } sp lin v
    | none => rmwHalf { s with win := { s.win with latch := none } } sp lin v

/-! ### REMOTE (R277 to R280) -/

def remDev (s : State) : BitVec 9 := BitVec.ofNat 9 (fld s.win.remadr 0 9)
def remSpace (s : State) : Nat := if fld s.win.remadr 9 3 = 7 then 0 else fld s.win.remadr 9 3

/-- R277: a port that leads to the peer manager, which lies behind the branch roots: the first UP port, or without one the first that is not
fenced (log 99). -/
def peerPort (s : State) : Option Nat := (upPorts s ++ (List.range 6).filter (fun k => (getPort s k).st != .fenced)).head?

/-- R277: the port behind which a device lies. -/
def remPort (s : State) (d : BitVec 9) : Option Nat :=
  (s.lnk.members.find? (fun m => m.addr == d)).bind (fun m => if m.port < 6 then some m.port else peerPort s)

/-- R277: no device answers there. -/
def noDevice (s : State) (d : BitVec 9) : Bool :=
  d == ownAddr s || (match remPort s d with
    | none => true
    | some k => (getPort s k).st == .fenced)

/-- R310: a WINREQ. -/
def winreqParcel (s : State) (write : Bool) (lin n : Nat) (ws : List W16) : Parcel :=
  mkParcel s tyWinreq (remDev s) 0
    ([BitVec.ofNat 8 (b2n write), BitVec.ofNat 8 (remSpace s), BitVec.ofNat 8 (lin / 65536), BitVec.ofNat 8 (n - 1)]
      ++ be16 (w16 lin) ++ be16 s.win.nextTag ++ ws.flatMap be16)

/-- The request is outstanding. -/
def requestOut (s : State) (write : Bool) : State :=
  { s with win := { s.win with busy := true, tag := some (s.win.nextTag, write), bcast := remDev s == 0x1FF, nextTag := s.win.nextTag + 1 } }

/-- R279: the buffered writes are sent as one parcel; to 0x1FF on every port, which reaches the devices of the tree, and neither the manager itself nor
its peer (DEDUCED, log 145). -/
def remSend (s : State) : State :=
  if s.win.buf.isEmpty ∨ s.win.busy then s
  else
    (let s1 := { s with win := { s.win with buf := [] } }
     let p := winreqParcel s true s.win.bufAdr s.win.buf.length s.win.buf
     if !(remoteOk s) then winErr s1 errUnmapped
     else if remDev s = 0x1FF then bcastSent (putDownAll (requestOut s1 true) (upPorts s1) p)
     else if noDevice s (remDev s) then winErr s1 errNodev
     else putDown (requestOut s1 true) ((remPort s (remDev s)).getD 0) p)

/-- R279: a WINDAT write enters the buffer. -/
def remWrite (s : State) (lin : Nat) (v : W16) : State :=
  let follows := s.win.buf.isEmpty || (s.win.bufAdr + s.win.buf.length) % 0x1000000 == lin
  let s1 := if follows then s else remSend s
  let s2 := { s1 with win := { s1.win with bufAdr := if s1.win.buf.isEmpty then lin else s1.win.bufAdr, buf := s1.win.buf ++ [v] } }
  if s2.win.buf.length = 64 then remSend s2 else s2

/-- R278: the next fetched word. -/
def remRead (s : State) : W16 × State :=
  match s.win.fetched with
  | [] => (0, winErr s errEmpty)
  | v :: t => (v, { s with win := { s.win with fetched := t, rdy := !t.isEmpty } })

/-- R278: fetched words left unread are discarded. -/
def dropFetched (s : State) : State := { s with win := { s.win with fetched := [], rdy := false } }

/-- R277, R278: a fetch of n words. -/
def fetchStart (s : State) (n : Nat) : State :=
  if s.win.busy then winErr s errOvf
  else
    (let s1 := dropFetched s
     if !(remoteOk s) then winErr s1 errUnmapped
     else if remDev s = 0x1FF ∨ noDevice s (remDev s) then winErr s1 errNodev
     else putDown (requestOut s1 false) ((remPort s (remDev s)).getD 0) (winreqParcel s1 false (winLin s) n []))

/-! ### Host accesses of the window registers (R267, R275 to R279) -/

/-- R268: the window registers are reached in HOSTLOAD and RUN. -/
def winOpen (s : State) : Bool := inRun s || s.pwr.boot == .hostload

/-- R268: a write that the port does not take sets BOOTWR. -/
def bootWritten (s : State) : State := { s with pwr := { s.pwr with bootWr := true } }

/-- A write of a window register. -/
def winWrites (s : State) (f : State → State) : State :=
  if !(hostAnswers s) then s else if winOpen s then f s else bootWritten s

/-- A write of a window register other than WINDAT, which commits a half that is held (R276). -/
def winRegWrites (s : State) (f : State → State) : State := winWrites s (fun s => f (settle s))

/-- R274 to R276, R278: a WINDAT read. -/
def windatGet (s : State) : State :=
  let s1 := settle s
  match winGate s1 with
  | some e => winStep (setHd (winErr s1 e) 0)
  | none =>
    let sp := winSpace s1
    let x := if sp = 7 then remRead s1 else if memSpace sp then memRead s1 sp (winLin s1) else regRead s1 sp (winLin s1)
    let s2 := if memSpace sp then x.2 else { x.2 with win := { x.2.win with latch := none } }
    winStep (setHd s2 x.1)

/-- WINDAT_READ (R274 to R276, R278). -/
def execWindatRead (s : State) : Res :=
  .next (if !(hostAnswers s) then s else if winOpen s then windatGet s else setHd s 0)

/-- R274 to R277, R279: a WINDAT write. -/
def windatPut (s : State) (v : W16) : State :=
  if s.win.busy then winErr (settle s) errOvf
  else match winGate s with
    | some e => winStep (winErr (settle s) e)
    | none =>
      let sp := winSpace s
      let lin := winLin s
      if memSpace sp then winStep (memPut s sp lin v)
      else
        (let s1 := settle s
         let s2 := { s1 with win := { s1.win with latch := none } }
         winStep (if sp = 7 then remWrite s2 lin v else regWrite s2 sp lin v))

/-- WINDAT_WRITE (R274 to R277, R279). -/
def execWindatWrite (v : W16) (s : State) : Res := .next (winWrites s (fun s => windatPut s v))

/-- R277 to R279: a write of WINSEL or REMADR. -/
def winselPut (s : State) (remadr : Bool) (v : W16) : State :=
  if s.win.busy then winErr s errOvf
  else
    (let s1 := dropFetched (remSend s)
     if remadr then { s1 with win := { s1.win with remadr := v &&& 0x0FFF } } else { s1 with win := { s1.win with sel := v &&& 0xE1FF } })

/-- WINDOW_SELECT_WRITE (R277 to R279). -/
def execWindowSelectWrite (remadr : Bool) (v : W16) (s : State) : Res := .next (winRegWrites s (fun s => winselPut s remadr v))

/-- R277: a write of WINADR. -/
def winadrPut (s : State) (v : W16) : State := if s.win.busy then winErr s errOvf else { s with win := { s.win with adr := v } }

/-- R267, R278, R279: a write of WINSTAT. -/
def winstatPut (s : State) (w : W16) : State :=
  let s1 := { s with win := { s.win with errf := s.win.errf && !(bit w 6) } }
  let s2 := if bit w 7 then remSend s1 else s1
  if bit w 14 then fetchStart s2 (fld w 8 6 + 1) else s2

/-- REMOTE_FETCH (R278): a WINSTAT write. -/
def execRemoteFetch (w : W16) (s : State) : Res := .next (winRegWrites s (fun s => winstatPut s w))

/-- REMOTE_PUSH (R279): a WINSTAT write. -/
def execRemotePush (w : W16) (s : State) : Res := .next (winRegWrites s (fun s => winstatPut s w))

/-- WINDOW_TIMEOUT (R280): 2 ms without an answer. -/
def execWindowTimeout (s : State) : Res :=
  .next (if s.win.busy then winErr { s with win := { s.win with busy := false, tag := none } } errTimeout else s)

/-! ### The target (R277, R328) and the answer -/

/-- R277: word `lin` of a space, as a local access reads it; the flag says uncorrectable. -/
def tgtRead (s : State) (sp lin : Nat) : W16 × Bool × State :=
  if memSpace sp then
    (let x := loadWord s (memAddr sp lin)
     (halfOf x.1 (lin % 2 == 1), x.2.1, x.2.2))
  else
    (let x := regRead s sp lin
     (x.1, false, x.2))

/-- n words from `lin`. -/
def tgtReads (s : State) (sp : Nat) : Nat → Nat → List W16 × Bool × State
  | 0, _ => ([], false, s)
  | n + 1, lin =>
    let x := tgtRead s sp lin
    let y := tgtReads x.2.2 sp n (lin + 1)
    (x.1 :: y.1, x.2.1 || y.2.1, y.2.2)

/-- R276, R328: words written, whole memory words together. -/
def tgtWrites (s : State) (sp : Nat) : Nat → List W16 → State
  | _, [] => s
  | lin, [v] => if memSpace sp then rmwHalf s sp lin v else regWrite s sp lin v
  | lin, v :: w :: t =>
    if memSpace sp ∧ lin % 2 = 0 then tgtWrites (storeWord s (memAddr sp lin) (putHalf (v.setWidth 32) true w)) sp (lin + 2) t
    else tgtWrites (if memSpace sp then rmwHalf s sp lin v else regWrite s sp lin v) sp (lin + 1) (w :: t)

/-- R276: half words whose memory word is uncorrectable; the parcel is then not applied at all. -/
def tgtBad (s : State) (sp lin n : Nat) : Bool :=
  memSpace sp && ((lin % 2 == 1 && s.mem.bad.contains (memAddr sp lin / 4))
    || ((lin + n) % 2 == 1 && s.mem.bad.contains (memAddr sp (lin + n - 1) / 4)))

/-- R328: what the target does with a WINREQ: status, data, state. -/
def serve (s : State) (p : Parcel) : Nat × List W16 × State :=
  let b := fun (i : Nat) => (byteAt p.payload i).toNat
  let sp := if b 1 % 8 = 7 then 0 else b 1 % 8
  let lin := b 2 * 65536 + beAt p.payload 4 2
  let n := b 3 % 64 + 1
  if !(inRun s) || s.pwr.mode != .scan then (1, [], s)
  else if spacePages sp * 65536 < lin + n then (2, [], s)
  else if b 0 = 0 then
    (let x := tgtReads s sp n lin
     (if x.2.1 then 3 else 0, x.1, x.2.2))
  else if tgtBad s sp lin n then
    (let x := tgtReads s sp 1 lin
     let y := tgtReads x.2.2 sp 1 (lin + n - 1)
     (3, [], y.2.2))
  else (0, [], tgtWrites s sp lin ((List.range n).map (fun i => w16 (beAt p.payload (8 + 2 * i) 2))))

/-- R328: a worker serves a WINREQ, and answers one that is not addressed to 0x1FF. -/
def serveReq (s : State) (k : Nat) (p : Parcel) : State :=
  let r := serve s p
  if p.dst = 0x1FF then r.2.2
  else putUp r.2.2 k (mkParcel r.2.2 tyWinrsp p.src 0
    ((p.payload.drop 6).take 2 ++ [BitVec.ofNat 8 r.1, byteAt p.payload 3] ++ r.2.1.flatMap be16))

/-- WINREQ_RX (R311, R328). -/
def execWinreqRx (port : Fin 6) (x : RxParcel) (s : State) : Res :=
  .next (receive s port x tyWinreq (fun s =>
    if !(isUplink s port) then s
    else
      (let s1 := forwardDown s port x.p
       if forMe s x.p then serveReq s1 port x.p else s1)))

/-- R278 to R280: the answer to the outstanding request. -/
def takeRsp (s : State) (p : Parcel) : State :=
  match s.win.tag with
  | none => s
  | some t =>
    if w16 (beAt p.payload 0 2) ≠ t.1 then s
    else
      (let ws := if t.2 then s.win.fetched else wordsOf (p.payload.drop 4)
       let s1 := { s with win := { s.win with busy := false, tag := none, fetched := ws, rdy := !ws.isEmpty } }
       match (byteAt p.payload 2).toNat with
       | 0 => s1
       | 1 => winErr s1 errRem
       | 2 => winErr s1 errUnmapped
       | _ => winErr s1 errEcc)

/-- WINRSP_RX (R278 to R280, R311). -/
def execWinrspRx (port : Fin 6) (x : RxParcel) (s : State) : Res :=
  .next (receive s port x tyWinrsp (fun s =>
    if isManager s then (if x.p.dst == ownAddr s then takeRsp s x.p else s)
    else if isUplink s port then s else forwardUp s port x.p))

end Sys2Proof.Machine
end

