-- ==== Sys2Proof/Machine/HostPort.lean ====
section
/-! DEFINITION. Host register accesses (R258 to R273): reads with effects of their own, writes of one register, clearing reads (R8, R10), and
register writes by the host and by Carud (R8, R208). -/
namespace Sys2Proof.Machine

/-- R265: HINT_n is low while a bit of IRQSTAT is set that IRQMASK does not mask, in every mode; without VDDIO_H it floats (R258, R387). -/
def hintLow (s : State) : Bool := s.pwr.hostOk && s.pwr.irqstat &&& ~~~s.pwr.irqmask != 0

/-! ### Accesses (R260, R266, R268, R276) -/

/-- A write of a host register other than those of the host load: before RUN it is ignored and sets BOOTWR (R268). A half held in the window is
committed first (R276). -/
def hostWrites (s : State) (f : State → State) : State :=
  if !(hostAnswers s) then s else if inRun s then f (settle s) else bootWritten (settle s)

/-- A host read of a register that reads 0 before RUN (R266, R268, R276): `f` gives the state and the value in RUN. -/
def hostReads (s : State) (f : State → State × W16) : State :=
  if !(hostAnswers s) then s
  else if inRun s then setHd (f (settle s)).1 (f (settle s)).2
  else setHd (settle s) 0

/-- R27: the whole timestamp is latched. -/
def beatloGet (s : State) : State × W16 :=
  if alive s.pwr.sense then ({ s with beat := { s.beat with latBeat := s.beat.no, latPhase := phaseNow s } }, slice s.beat.no 0) else (s, 0)

/-- R65, R267: CALCNTHI, CALBEATLO and CALBEATHI are latched. -/
def calcntGet (s : State) : State × W16 :=
  if alive s.pwr.sense then ({ s with ana := { s.ana with latCnt := slice s.ana.calCnt 1, latBeat := s.ana.calBeat } }, slice s.ana.calCnt 0) else (s, 0)

/-- R169: the host reads AUXDATA. -/
def auxdataGet (s : State) : State × W16 := if alive s.pwr.sense then (auxTake s .host, s.aux.data) else (s, 0)

/-- R290: the host reads RQDATA or BQDATA; a CORE that is off gives 0. -/
def queueGet (s : State) (bulk : Bool) (found : Upset) : State × W16 :=
  if alive s.pwr.core then (queueRead s bulk found, (queueRead s bulk found).win.hd) else (s, 0)

/-- BEATLO_READ (R27). -/
def execBeatloRead (s : State) : Res := .next (hostReads s beatloGet)

/-- CALCNTLO_READ (R65, R267). -/
def execCalcntloRead (s : State) : Res := .next (hostReads s calcntGet)

/-- AUXDATA_READ (R169). -/
def execAuxdataRead (side : Side) (s : State) : Res :=
  .next (match side with
    | .host => hostReads s auxdataGet
    | .carud => if coreRuns s then auxTake s .carud else s)

/-- QUEUE_DATA_READ (R290, R295): the read names the queue and what the SECDED bits of the word at P show. -/
def execQueueDataRead (x : QueueRead) (s : State) : Res := .next (hostReads s (fun s => queueGet s x.bulk x.found))

/-! ### Writes of one host register (R195, R255, R269 to R273, R293, R294) -/

/-- MODE_REQUEST (R270). -/
def execModeRequest (w : W16) (s : State) : Res := .next (hostWrites s (fun s => modectlWrite s w))

/-- PERF_REQUEST (R271). -/
def execPerfRequest (w : W16) (s : State) : Res := .next (hostWrites s (fun s => perfWrite s w))

/-- FENCE_ISSUE (R29, R34, R273): a FENCECTL write. -/
def execFenceIssue (w : W16) (s : State) : Res := .next (hostWrites s (fun s => fencectlWrite s w))

/-- PERMIT_FORCE (R195). -/
def execPermitForce (w : W16) (s : State) : Res := .next (hostWrites s (fun s => permitForce s w))

/-- QUEUE_FLUSH (R293): a CTL write; FLUSH acts at once when no packet is being written. -/
def execQueueFlush (bulk : Bool) (w : W16) (s : State) : Res :=
  .next (hostWrites s (fun s => if alive s.pwr.core then queueCtl s bulk w else s))

/-- QUEUE_FLUSHNOW (R294): a CTL write; FLUSHNOW goes before FLUSH. -/
def execQueueFlushnow (bulk : Bool) (w : W16) (s : State) : Res :=
  .next (hostWrites s (fun s => if alive s.pwr.core then queueCtl s bulk w else s))

/-- R267, R268: a write of BOOTCTL. -/
def bootctlPut (s : State) (w : W16) : State :=
  if fld w 8 8 != 0xC3 then s
  else
    (let s1 := { s with pwr := { s.pwr with lock := s.pwr.lock || bit w 0 } }
     if bit w 1 && s.pwr.boot == .hostload && !s.pwr.loaded then hostGo s1 else s1)

/-- BOOT_GO (R269): a BOOTCTL write. -/
def execBootGo (w : W16) (s : State) : Res := .next (winRegWrites s (fun s => bootctlPut s w))

/-- MICRO_LOCK (R255): a BOOTCTL write. -/
def execMicroLock (w : W16) (s : State) : Res := .next (winRegWrites s (fun s => bootctlPut s w))

/-! ### Clearing reads, and accesses by register -/

/-- R266: a clearing read of a host register; one whose domain is off clears nothing. -/
def clearHost (s : State) (off : Nat) (event : Bool) : State × W16 :=
  let v := hostValue s off
  match hostSource s off with
  | some .off => (s, v)
  | _ => (hostClear s off event, v)

/-- R268: the registers that a host read reaches in the boot state. -/
def hostVisible (s : State) (off : Nat) : Bool :=
  inRun s || off == 0 || off == 2 || (s.pwr.boot == .hostload && (off == 1 || (decide (0x0A ≤ off) && decide (off ≤ 0x0E)) || off == 0x32))

/-- R268, R276: why the window does not reach a word of CONFIG, AUX or LOG space, where it is open: a host load reaches none of them, and in HOLD and
DORMANT every space is asleep. -/
def spaceGate (s : State) : Option (BitVec 4) :=
  if s.pwr.boot = .hostload then some errUnmapped else if s.pwr.mode = .hold ∨ s.pwr.mode = .dormant then some errAsleep else none

/-- R276: a host access of a word of CONFIG, AUX or LOG space through an open window: a half held there is committed first; where the access is not
made, ERR says why. -/
def hostSpace (s : State) (f g : State → State) : State :=
  match spaceGate s with
  | none => f (settle s)
  | some e => g (winErr (settle s) e)

/-- A host write of such a word. The host supply is there (R258, R387); before the window is open the write sets BOOTWR (R268). -/
def writeSpace (s : State) (f : State → State) : State := winWrites s (fun s => hostSpace s f (fun s => s))

/-- A host read of such a word; one that is not made reads 0 (R268, R276). -/
def readSpace (s : State) (f : State → State) : State :=
  if !(hostAnswers s) then s else if winOpen s then hostSpace s f (fun s => setHd s 0) else setHd s 0

/-- A host read whose effects and value `f` gives. -/
def clearSpace (s : State) (f : State → State × W16) : State := readSpace s (fun s => setHd (f s).1 (f s).2)

/-- R260, R266: what a read of a host register does, once per access: the state after it, and the value. -/
def hostGet (s : State) (off : Nat) (event : Bool) : State × W16 :=
  match off with
  | 0x10 => queueGet s false .none
  | 0x16 => queueGet s true .none
  | 0x1D => beatloGet s
  | 0x20 => calcntGet s
  | 0x28 => auxdataGet s
  | _ => clearHost s off event

/-- SYNPERLO_READ (R101): the host reads SYNPERLOk. -/
def execSynperloRead (k : Fin 4) (s : State) : Res := .next (readSpace s (fun s => synLatch s k))

/-- COUNTER_CLEARING_READ (R8, R10, R260, R268, R384): the host reads a register and its RC fields clear; `event`: one of its events falls in the same
clock, so that the counter reads 1 afterwards. A read of a register with other effects has those. -/
def execCounterClearingRead (r : RegTarget) (event : Bool) (s : State) : Res :=
  .next (match r with
    | .host off =>
      if !(hostAnswers s) then s
      else if off = 0x0C ∧ winOpen s = true then windatGet s
      else if hostVisible s off.toNat then setHd (hostGet (settle s) off.toNat event).1 (hostGet (settle s) off.toNat event).2
      else setHd (settle s) 0
    | .config adr => clearSpace s (fun s => (configRead s adr.toNat event, configWord s adr.toNat))
    | .aux adr => clearSpace s (fun s => (auxRead s adr.toNat event, auxWord s adr.toNat))
    | .log adr => clearSpace s (fun s => (logSpaceRead s adr.toNat event, logSpaceWord s adr.toNat)))

/-- R266, R267: a host register written in RUN. -/
def hostRegPut (s : State) (off : Nat) (v : W16) : State :=
  if off = 0x02 then { s with pwr := { s.pwr with bootWr := s.pwr.bootWr && !(bit v 10) } }
  else if off = 0x03 then modectlWrite s v
  else if off = 0x04 then perfWrite s v
  else if off = 0x05 then { s with pwr := { s.pwr with irqstat := s.pwr.irqstat &&& ~~~v } }
  else if off = 0x06 then { s with pwr := { s.pwr with irqmask := v } }
  else if off = 0x08 then (if alive s.pwr.core then fencectlWrite s v else s)
  else if off = 0x14 then (if alive s.pwr.core then queueCtl s false v else s)
  else if off = 0x1A then (if alive s.pwr.core then queueCtl s true v else s)
  else if off = 0x24 then permitForce s v
  else if off = 0x29 then (if alive s.pwr.sense then ovrClear s v else s)
  else if off = 0x33 then { s with pwr := { s.pwr with scratch := v } }
  else s

/-- R268: a host register written: the window's, BOOTCTL, REVISION, which takes nothing, or another. -/
def hostRegWrite (s : State) (off : Nat) (v : W16) : State :=
  if off = 0x01 then winRegWrites s (fun s => s)
  else if off = 0x0A then winRegWrites s (fun s => winselPut s false v)
  else if off = 0x0B then winRegWrites s (fun s => winadrPut s v)
  else if off = 0x0C then winWrites s (fun s => windatPut s v)
  else if off = 0x0D then winRegWrites s (fun s => winstatPut s v)
  else if off = 0x0E then winRegWrites s (fun s => winselPut s true v)
  else if off = 0x32 then winRegWrites s (fun s => bootctlPut s v)
  else hostWrites s (fun s => hostRegPut s off v)

/-- R206, R208: Carud's write of a register word. -/
def carudRegWrite (s : State) (r : RegTarget) (v : W16) : State :=
  match r with
  | .host off => mirrorWrite s off.toNat v
  | .config adr => configWrite s .carud adr.toNat v
  | .aux adr => auxWrite s adr.toNat v
  | .log _ => s

/-- REGISTER_WRITE (R8, R9, R208, R262, R266). CONFIG and AUX words are those that the window reaches (R274). -/
def execRegisterWrite (side : Side) (r : RegTarget) (v : W16) (s : State) : Res :=
  .next (match side with
    | .carud => carudAccess s (fun s => carudRegWrite s r v)
    | .host => match r with
      | .host off => hostRegWrite s off.toNat v
      | .config adr => writeSpace s (fun s => configWrite s .host adr.toNat v)
      | .aux adr => writeSpace s (fun s => auxWrite s adr.toNat v)
      | .log _ => writeSpace s (fun s => s))

/-- Time passes on an empty queue (log 2), and what still waits of an instruction of Carud goes on (R252, R298; log 138). -/
def idle (s : State) : State := lateDrain (tick s)

end Sys2Proof.Machine
end

