-- ==== Sys2Proof/Machine/Jtag.lean ====
section
/-! DEFINITION. Boundary scan (R401). -/
namespace Sys2Proof.Machine

/-- R401: an instruction takes force; leaving EXTEST resets the device as RESET_n does. In power-on reset nothing is taken (R388). -/
def jtagTake (s : State) (ir : JtagIr) (dr : W32) : State :=
  if !s.pwr.powered then s
  else
    (let s1 := { s with jtag := { s.jtag with ir := ir, dr := dr } }
     if s.jtag.ir = .extest ∧ ir ≠ .extest then resetPin s1 else s1)

/-- R401: the carousel is held where it stands. -/
def carHold (s : State) : State :=
  if s.jtag.ir = .extest then s
  else
    (let s1 := runPresent s
     { s1 with jtag := { s1.jtag with heldClk := s1.beat.clk } })

/-- JTAG_BYPASS (R401). -/
def execJtagBypass (s : State) : Res := .next (jtagTake s .bypass 0)

/-- R401: the identity. -/
def idcode : W32 := 0x2E480A57

/-- JTAG_IDCODE (R401). -/
def execJtagIdcode (s : State) : Res := .next (jtagTake s .idcode idcode)

/-- R401: what SAMPLE captures: the balls' levels, those that the device drives as it drives them. -/
def sampleCells (s : State) (balls : Cells) : Cells :=
  { balls with
    host := putBit balls.host 4 (bit balls.host 4 && !(hintLow s))
    prm := [0, 1, 2, 3].foldl (fun m k => putBit m k (getPermit s k).out) 0 }

/-- JTAG_SAMPLE_PRELOAD (R401): SAMPLE captures the balls, and the boundary cells take what is shifted in; nothing else changes. -/
def execJtagSamplePreload (x : ScanIn) (s : State) : Res :=
  .next (
    if !s.pwr.powered then s
    else
      (let s1 := jtagTake s .sample s.jtag.dr
       { s1 with jtag := { s1.jtag with cells := x.cells, sampled := sampleCells s x.balls } }))

/-- JTAG_EXTEST (R401): the balls follow the cells; the carousel, the zone unit and the permit logic are held, and every permit
that EXTEST does not drive is OFF. -/
def execJtagExtest (s : State) : Res := .next (if s.pwr.powered then permitsOff (jtagTake (carHold s) .extest s.jtag.dr) else s)

/-- JTAG_EXTEST_EXIT (R401). -/
def execJtagExtestExit (s : State) : Res := .next (if s.jtag.ir = .extest then jtagTake s .idcode idcode else s)

/-! ### The balls during EXTEST (R387, R388, R401) -/

/-- R388, R401: the boundary cells drive their balls. -/
def scanning (s : State) : Bool := s.jtag.ir == .extest && s.pwr.powered

/-- R401: PRMk is driven by its boundary cell only during EXTEST and while VFLD is in its range. -/
def scanDrives (s : State) (k : Nat) : Bool := scanning s && s.pwr.vfldOk && bit s.jtag.cells.prm k

/-- R401: what the cells drive, the permits under VFLD (R401); the host balls' cells drive only with VDDIO_H (R387), as `scanHost` says. -/
def scanCells (s : State) : Option Cells :=
  if scanning s then some { s.jtag.cells with prm := if s.pwr.vfldOk then s.jtag.cells.prm else 0 } else none

/-- R387, R401: the cells of the host balls drive HD, HWAIT_n and HINT_n. -/
def scanHost (s : State) : Bool := scanning s && s.pwr.hostOk

/-- R260, R265, R387, R401: the value that drives HD: the cells' during EXTEST, else the latest read's; without VDDIO_H HD is at high impedance. -/
def hdBall (s : State) : Option W16 := if !s.pwr.hostOk then none else if scanHost s then some s.jtag.cells.hd else some s.win.hd

/-- R265, R387, R401: HINT_n is low: by its cell during EXTEST, else by the pending interrupts; without VDDIO_H it is at high impedance. -/
def hintBall (s : State) : Bool := if scanHost s then !(bit s.jtag.cells.host 4) else hintLow s

/-- R387, R401: whether HWAIT_n is low; none where it is at high impedance, without VDDIO_H. A cell drives it during EXTEST; the waits within an
access are timing (log 102). -/
def hwaitBall (s : State) : Option Bool := if !s.pwr.hostOk then none else if scanHost s then some (!(bit s.jtag.cells.host 3)) else some false

end Sys2Proof.Machine
end

