-- ==== Sys2Proof/Machine/Dispatch.lean ====
section
/-! DEFINITION. One arm per command; each calls its meaning. -/
namespace Sys2Proof.Machine

def exec (i : Instr) (s : State) : Host.Outcome State Fault Refusal :=
  match i with
  | .powerOnReset => Sys2Proof.Machine.execPowerOnReset s
  | .resetNAssert ns => Sys2Proof.Machine.execResetNAssert ns s
  | .resetEnd roleLevel strapSrc => Sys2Proof.Machine.execResetEnd roleLevel strapSrc s
  | .clocksLocked flash => Sys2Proof.Machine.execClocksLocked flash s
  | .clocksTimeout => Sys2Proof.Machine.execClocksTimeout s
  | .loadComplete => Sys2Proof.Machine.execLoadComplete s
  | .bootGo w => Sys2Proof.Machine.execBootGo w s
  | .microLock w => Sys2Proof.Machine.execMicroLock w s
  | .vhvLoss => Sys2Proof.Machine.execVhvLoss s
  | .vhvRestore => Sys2Proof.Machine.execVhvRestore s
  | .vfldLoss => Sys2Proof.Machine.execVfldLoss s
  | .vfldRestore => Sys2Proof.Machine.execVfldRestore s
  | .hostSupplyLoss => Sys2Proof.Machine.execHostSupplyLoss s
  | .hostSupplyRestore => Sys2Proof.Machine.execHostSupplyRestore s
  | .refclkLoss => Sys2Proof.Machine.execRefclkLoss s
  | .refclkRestore => Sys2Proof.Machine.execRefclkRestore s
  | .modeRequest w => Sys2Proof.Machine.execModeRequest w s
  | .watchEntry => Sys2Proof.Machine.execWatchEntry s
  | .holdoverEnd => Sys2Proof.Machine.execHoldoverEnd s
  | .coreResumed => Sys2Proof.Machine.execCoreResumed s
  | .senseResumed => Sys2Proof.Machine.execSenseResumed s
  | .perfRequest w => Sys2Proof.Machine.execPerfRequest w s
  | .perfChangeDone => Sys2Proof.Machine.execPerfChangeDone s
  | .wakePin lowNs => Sys2Proof.Machine.execWakePin lowNs s
  | .linkActivityWake port ns => Sys2Proof.Machine.execLinkActivityWake port ns s
  | .beat measured => Sys2Proof.Machine.execBeat measured s
  | .beatEdge interval => Sys2Proof.Machine.execBeatEdge interval s
  | .beatLost => Sys2Proof.Machine.execBeatLost s
  | .fenceIssue w => Sys2Proof.Machine.execFenceIssue w s
  | .fenceApply => Sys2Proof.Machine.execFenceApply s
  | .passStart p at_ => Sys2Proof.Machine.execPassStart p at_ s
  | .groupStart p g at_ q => Sys2Proof.Machine.execGroupStart p g at_ q s
  | .quietHoldEnd => Sys2Proof.Machine.execQuietHoldEnd s
  | .noisyCompletion => Sys2Proof.Machine.execNoisyCompletion s
  | .deadlineReached => Sys2Proof.Machine.execDeadlineReached s
  | .groupDecode p g errs zerr => Sys2Proof.Machine.execGroupDecode p g errs zerr s
  | .selfStepDone p zerr => Sys2Proof.Machine.execSelfStepDone p zerr s
  | .listenEnd p samples => Sys2Proof.Machine.execListenEnd p samples s
  | .synEdge k before after => Sys2Proof.Machine.execSynEdge k before after s
  | .synTimeout k => Sys2Proof.Machine.execSynTimeout k s
  | .frequencyHop p => Sys2Proof.Machine.execFrequencyHop p s
  | .shdOverload x => Sys2Proof.Machine.execShdOverload x s
  | .shdFence k => Sys2Proof.Machine.execShdFence k s
  | .clampEvent g sinceNs => Sys2Proof.Machine.execClampEvent g sinceNs s
  | .calDue => Sys2Proof.Machine.execCalDue s
  | .calibrationRequest w => Sys2Proof.Machine.execCalibrationRequest w s
  | .calStep m0 m1 sat => Sys2Proof.Machine.execCalStep m0 m1 sat s
  | .calForce => Sys2Proof.Machine.execCalForce s
  | .trimApply => Sys2Proof.Machine.execTrimApply s
  | .ampFence a => Sys2Proof.Machine.execAmpFence a s
  | .elchkDue => Sys2Proof.Machine.execElchkDue s
  | .elchkStep caps coups => Sys2Proof.Machine.execElchkStep caps coups s
  | .elecFence e => Sys2Proof.Machine.execElecFence e s
  | .elchklate => Sys2Proof.Machine.execElchklate s
  | .pipelineRow p t err => Sys2Proof.Machine.execPipelineRow p t err s
  | .passDone p => Sys2Proof.Machine.execPassDone p s
  | .keySelect p grp => Sys2Proof.Machine.execKeySelect p grp s
  | .baselineValid p => Sys2Proof.Machine.execBaselineValid p s
  | .retrackEnd p => Sys2Proof.Machine.execRetrackEnd p s
  | .negReseat p ix => Sys2Proof.Machine.execNegReseat p ix s
  | .blrelease p => Sys2Proof.Machine.execBlrelease p s
  | .pipeFence p => Sys2Proof.Machine.execPipeFence p s
  | .reseat w => Sys2Proof.Machine.execReseat w s
  | .retrack w => Sys2Proof.Machine.execRetrack w s
  | .streamFrame p => Sys2Proof.Machine.execStreamFrame p s
  | .gesture => Sys2Proof.Machine.execGesture s
  | .checkSlotDone samples => Sys2Proof.Machine.execCheckSlotDone samples s
  | .comparatorCrossing k level => Sys2Proof.Machine.execComparatorCrossing k level s
  | .urgentConversion x vref => Sys2Proof.Machine.execUrgentConversion x vref s
  | .seqEntryStart => Sys2Proof.Machine.execSeqEntryStart s
  | .seqConversion x vref => Sys2Proof.Machine.execSeqConversion x vref s
  | .auxResult parityBad => Sys2Proof.Machine.execAuxResult parityBad s
  | .auxChannelUnmeasurable ch => Sys2Proof.Machine.execAuxChannelUnmeasurable ch s
  | .excOverload x => Sys2Proof.Machine.execExcOverload x s
  | .excRefbad x => Sys2Proof.Machine.execExcRefbad x s
  | .excThermalTrip j => Sys2Proof.Machine.execExcThermalTrip j s
  | .excThermalRecover j => Sys2Proof.Machine.execExcThermalRecover j s
  | .axcalZero w => Sys2Proof.Machine.execAxcalZero w s
  | .axcalSpan w => Sys2Proof.Machine.execAxcalSpan w s
  | .axcalStart => Sys2Proof.Machine.execAxcalStart s
  | .axcalDone ch => Sys2Proof.Machine.execAxcalDone ch s
  | .auxdataRead side => Sys2Proof.Machine.execAuxdataRead side s
  | .zoneTrip z => Sys2Proof.Machine.execZoneTrip z s
  | .zoneRelease z => Sys2Proof.Machine.execZoneRelease z s
  | .zoneUnmeasTrip z => Sys2Proof.Machine.execZoneUnmeasTrip z s
  | .zoneBaselineValid z => Sys2Proof.Machine.execZoneBaselineValid z s
  | .zoneSourceTimeout z => Sys2Proof.Machine.execZoneSourceTimeout z s
  | .zclr hi w => Sys2Proof.Machine.execZclr hi w s
  | .zoneBitmapWrite adr v => Sys2Proof.Machine.execZoneBitmapWrite adr v s
  | .permitOn k => Sys2Proof.Machine.execPermitOn k s
  | .permitForce w => Sys2Proof.Machine.execPermitForce w s
  | .permitReadbackFault k => Sys2Proof.Machine.execPermitReadbackFault k s
  | .permitShort k => Sys2Proof.Machine.execPermitShort k s
  | .backfedRejudge k => Sys2Proof.Machine.execBackfedRejudge k s
  | .permclr w => Sys2Proof.Machine.execPermclr w s
  | .alertPeriodic => Sys2Proof.Machine.execAlertPeriodic s
  | .remoteTimeout dev => Sys2Proof.Machine.execRemoteTimeout dev s
  | .lampPeriodStart k x on => Sys2Proof.Machine.execLampPeriodStart k x on s
  | .lampOffEdge k reached level => Sys2Proof.Machine.execLampOffEdge k reached level s
  | .lampEdgeDeferred k x => Sys2Proof.Machine.execLampEdgeDeferred k x s
  | .lampDiagPulse k below => Sys2Proof.Machine.execLampDiagPulse k below s
  | .lampThermalTrip k => Sys2Proof.Machine.execLampThermalTrip k s
  | .mov h d src => Sys2Proof.Machine.execMov h d src s
  | .lea h d src => Sys2Proof.Machine.execLea h d src s
  | .gath h d b ix => Sys2Proof.Machine.execGath h d b ix s
  | .add h d s1 s2 => Sys2Proof.Machine.execAdd h d s1 s2 s
  | .sub h d s1 s2 => Sys2Proof.Machine.execSub h d s1 s2 s
  | .adds h d s1 s2 => Sys2Proof.Machine.execAdds h d s1 s2 s
  | .subs h d s1 s2 => Sys2Proof.Machine.execSubs h d s1 s2 s
  | .neg h d src => Sys2Proof.Machine.execNeg h d src s
  | .abs h d src => Sys2Proof.Machine.execAbs h d src s
  | .min h d s1 s2 => Sys2Proof.Machine.execMin h d s1 s2 s
  | .max h d s1 s2 => Sys2Proof.Machine.execMax h d s1 s2 s
  | .and h d s1 s2 => Sys2Proof.Machine.execAnd h d s1 s2 s
  | .or h d s1 s2 => Sys2Proof.Machine.execOr h d s1 s2 s
  | .xor h d s1 s2 => Sys2Proof.Machine.execXor h d s1 s2 s
  | .not h d src => Sys2Proof.Machine.execNot h d src s
  | .shl h d src n => Sys2Proof.Machine.execShl h d src n s
  | .shr h d src n => Sys2Proof.Machine.execShr h d src n s
  | .ext h d src => Sys2Proof.Machine.execExt h d src s
  | .cmp h s1 s2 => Sys2Proof.Machine.execCmp h s1 s2 s
  | .tst h s1 s2 => Sys2Proof.Machine.execTst h s1 s2 s
  | .plog h => Sys2Proof.Machine.execPlog h s
  | .mul h s1 s2 => Sys2Proof.Machine.execMul h s1 s2 s
  | .mac h s1 s2 => Sys2Proof.Machine.execMac h s1 s2 s
  | .mqrd h d => Sys2Proof.Machine.execMqrd h d s
  | .crcw h src => Sys2Proof.Machine.execCrcw h src s
  | .parity h d src => Sys2Proof.Machine.execParity h d src s
  | .brev h d src => Sys2Proof.Machine.execBrev h d src s
  | .resid h d src => Sys2Proof.Machine.execResid h d src s
  | .br h => Sys2Proof.Machine.execBr h s
  | .jmp h src => Sys2Proof.Machine.execJmp h src s
  | .call h => Sys2Proof.Machine.execCall h s
  | .calli h src => Sys2Proof.Machine.execCalli h src s
  | .ret h => Sys2Proof.Machine.execRet h s
  | .resume h => Sys2Proof.Machine.execResume h s
  | .trap h => Sys2Proof.Machine.execTrap h s
  | .loop h src => Sys2Proof.Machine.execLoop h src s
  | .lbrk h => Sys2Proof.Machine.execLbrk h s
  | .wait h => Sys2Proof.Machine.execWait h s
  | .waitRelease => Sys2Proof.Machine.execWaitRelease s
  | .nop w => Sys2Proof.Machine.execNop w s
  | .userInstruction n h ops => Sys2Proof.Machine.execUserInstruction n h ops s
  | .eventTrap firmware => Sys2Proof.Machine.execEventTrap firmware s
  | .timerExpire => Sys2Proof.Machine.execTimerExpire s
  | .timerWrite v => Sys2Proof.Machine.execTimerWrite v s
  | .mqWrite k v => Sys2Proof.Machine.execMqWrite k v s
  | .rsbotRead => Sys2Proof.Machine.execRsbotRead s
  | .rsbotWrite v => Sys2Proof.Machine.execRsbotWrite v s
  | .cycloRead => Sys2Proof.Machine.execCycloRead s
  | .carudHalt w => Sys2Proof.Machine.execCarudHalt w s
  | .carudRun w => Sys2Proof.Machine.execCarudRun w s
  | .carudReset w => Sys2Proof.Machine.execCarudReset w s
  | .carudDoorbell w => Sys2Proof.Machine.execCarudDoorbell w s
  | .scratchWrite v => Sys2Proof.Machine.execScratchWrite v s
  | .beatloRead => Sys2Proof.Machine.execBeatloRead s
  | .calcntloRead => Sys2Proof.Machine.execCalcntloRead s
  | .synperloRead k => Sys2Proof.Machine.execSynperloRead k s
  | .counterClearingRead r event => Sys2Proof.Machine.execCounterClearingRead r event s
  | .registerWrite side r v => Sys2Proof.Machine.execRegisterWrite side r v s
  | .windatRead => Sys2Proof.Machine.execWindatRead s
  | .windatWrite v => Sys2Proof.Machine.execWindatWrite v s
  | .windowSelectWrite remadr v => Sys2Proof.Machine.execWindowSelectWrite remadr v s
  | .remoteFetch w => Sys2Proof.Machine.execRemoteFetch w s
  | .remotePush w => Sys2Proof.Machine.execRemotePush w s
  | .windowTimeout => Sys2Proof.Machine.execWindowTimeout s
  | .queueDataRead x => Sys2Proof.Machine.execQueueDataRead x s
  | .queueFlush bulk w => Sys2Proof.Machine.execQueueFlush bulk w s
  | .queueFlushEffect bulk => Sys2Proof.Machine.execQueueFlushEffect bulk s
  | .queueFlushnow bulk w => Sys2Proof.Machine.execQueueFlushnow bulk w s
  | .queuePacketWrite bulk n => Sys2Proof.Machine.execQueuePacketWrite bulk n s
  | .queueReset bulk why => Sys2Proof.Machine.execQueueReset bulk why s
  | .pastart v => Sys2Proof.Machine.execPastart v s
  | .padata v => Sys2Proof.Machine.execPadata v s
  | .rxrtailWrite v => Sys2Proof.Machine.execRxrtailWrite v s
  | .logEntryRead slot => Sys2Proof.Machine.execLogEntryRead slot s
  | .reportRx port x => Sys2Proof.Machine.execReportRx port x s
  | .bulkRx port x => Sys2Proof.Machine.execBulkRx port x s
  | .alertRx port x => Sys2Proof.Machine.execAlertRx port x s
  | .fenceRx port x => Sys2Proof.Machine.execFenceRx port x s
  | .fenceackRx port x => Sys2Proof.Machine.execFenceackRx port x s
  | .beatRx port x est => Sys2Proof.Machine.execBeatRx port x est s
  | .grantRx port x => Sys2Proof.Machine.execGrantRx port x s
  | .endRx port ack inv rt => Sys2Proof.Machine.execEndRx port ack inv rt s
  | .helloRx port x => Sys2Proof.Machine.execHelloRx port x s
  | .enumRx port x => Sys2Proof.Machine.execEnumRx port x s
  | .winreqRx port x => Sys2Proof.Machine.execWinreqRx port x s
  | .winrspRx port x => Sys2Proof.Machine.execWinrspRx port x s
  | .bootimgRx port x => Sys2Proof.Machine.execBootimgRx port x s
  | .heartbeatRx port x => Sys2Proof.Machine.execHeartbeatRx port x s
  | .takeoverRx port x => Sys2Proof.Machine.execTakeoverRx port x s
  | .grantSend port => Sys2Proof.Machine.execGrantSend port s
  | .downwardParcelSend port => Sys2Proof.Machine.execDownwardParcelSend port s
  | .windowLost port => Sys2Proof.Machine.execWindowLost port s
  | .collision port => Sys2Proof.Machine.execCollision port s
  | .downPortBeacon port => Sys2Proof.Machine.execDownPortBeacon port s
  | .grantTimeout port ns => Sys2Proof.Machine.execGrantTimeout port ns s
  | .linkPortFence port why => Sys2Proof.Machine.execLinkPortFence port why s
  | .beatSideSwitch => Sys2Proof.Machine.execBeatSideSwitch s
  | .helloSend sinceNs => Sys2Proof.Machine.execHelloSend sinceNs s
  | .helloRetry => Sys2Proof.Machine.execHelloRetry s
  | .enumComplete => Sys2Proof.Machine.execEnumComplete s
  | .broadcastComplete => Sys2Proof.Machine.execBroadcastComplete s
  | .takeover => Sys2Proof.Machine.execTakeover s
  | .startupTakeover => Sys2Proof.Machine.execStartupTakeover s
  | .becomeStandby => Sys2Proof.Machine.execBecomeStandby s
  | .strapConflict => Sys2Proof.Machine.execStrapConflict s
  | .unfenceTest w => Sys2Proof.Machine.execUnfenceTest w s
  | .unfenceCommand w => Sys2Proof.Machine.execUnfenceCommand w s
  | .repairTestDone cal els good => Sys2Proof.Machine.execRepairTestDone cal els good s
  | .unfenceApply => Sys2Proof.Machine.execUnfenceApply s
  | .scrubAccess t found => Sys2Proof.Machine.execScrubAccess t found s
  | .jtagBypass => Sys2Proof.Machine.execJtagBypass s
  | .jtagIdcode => Sys2Proof.Machine.execJtagIdcode s
  | .jtagSamplePreload x => Sys2Proof.Machine.execJtagSamplePreload x s
  | .jtagExtest => Sys2Proof.Machine.execJtagExtest s
  | .jtagExtestExit => Sys2Proof.Machine.execJtagExtestExit s
  | .resetNRelease => Sys2Proof.Machine.execResetNRelease s
  | .powerOnResetRelease => Sys2Proof.Machine.execPowerOnResetRelease s
  | .permitReadbackChange k on => Sys2Proof.Machine.execPermitReadbackChange k on s
  | .permitSwitchCooled k => Sys2Proof.Machine.execPermitSwitchCooled k s
  | .excRefbadClear x => Sys2Proof.Machine.execExcRefbadClear x s
  | .dormantEntryFromHold => Sys2Proof.Machine.execDormantEntryFromHold s

end Sys2Proof.Machine
end

