-- ==== Sys2Proof/Safety.lean ====
section
/-! DEFINITION. The terms that the statements use: the canonical form of storage, when an instruction of Carud runs, and the results
that R223's table gives its instructions. -/
namespace Sys2Proof.Machine

/-- R206: the memories' canonical form. -/
def Mem.wf (m : Mem) : Bool := swf zero8 m.bytes

/-- Every sparse storage is in its canonical form: the memories (R206), the zone SRAM (R179), MICRO (R249), AONSCR (R364) and the
register words. -/
def State.stored (s : State) : Bool :=
  s.mem.wf && swf zero16 s.zon.sram && swf zero16 s.cpu.micro && swf zero16 s.pwr.aonscr && swf regReset s.regs.staged && swf regReset s.regs.force

/-! ### Permits -/

/-- R37, R192, R193, R344, R356, R401: what holds while permit k is commanded ON. -/
def permitMay (s : State) (k : Nat) : Prop :=
  s.pwr.powered = true ∧ s.pwr.vfldOk = true ∧ s.pwr.refStop = false ∧ s.pwr.boot = .run
  ∧ (s.pwr.mode = .scan ∨ s.pwr.mode = .watch) ∧ sleepAsked s = false
  ∧ (zonesOf s k ≠ [] ∨ entriesOf s k ≠ [])
  ∧ (∀ z ∈ zonesOf s k, (getZone s z).trip = false) ∧ (∀ e ∈ entriesOf s k, entryTripped s e = false)
  ∧ (getPermit s k).force = false ∧ (getPermit s k).fault = 0 ∧ s.jtag.ir ≠ .extest

/-- No permit is ON outside R37, in a state as runs reach them: storage in its canonical form, a wake that is held leads to SCAN or WATCH (R350),
and the AUX words that wait for a loop boundary are those of R166. -/
def permitsHeld (s : State) : Prop :=
  s.stored = true ∧ (∀ k : Fin 4, (getPermit s k).cmd = true → permitMay s k)
  ∧ (∀ w, s.pwr.wakeHeld = some w → w.2 = .scan ∨ w.2 = .watch) ∧ (∀ x ∈ s.regs.auxWait, takesForce x.1 = .loop)

/-! ### Carud's instructions -/

/-- R215, R222, R245: Carud runs, no event trap is due, and the guard is true. -/
def instrRuns (s : State) (h : IHdr) : Prop :=
  carudActs s = true ∧ eventDue s = false ∧ isNopGuard h = false ∧ guardOk s h = true

/-- The number of bits of SZ (R214), and the number that a value stands for under U. -/
def bitsOf (h : IHdr) : Nat := 8 * 2 ^ h.sz.toNat
def numberOf (h : IHdr) (a : W32) : Int := if h.u then (a.toNat : Int) else a.toInt

/-- R223: saturation to lo..hi. -/
def clampTo (lo hi x : Int) : BitVec 64 := BitVec.ofInt 64 (if x < lo then lo else if hi < x then hi else x)
def lowest (h : IHdr) (u : Bool) : Int := if u then 0 else -(2 ^ (bitsOf h - 1))
def highest (h : IHdr) (u : Bool) : Int := if u then 2 ^ bitsOf h - 1 else 2 ^ (bitsOf h - 1) - 1

/-- R223: the instructions d ← s1 op s2 with X = 0, and their results. -/
def threeOperand (i : IHdr → Opd → Opd → Opd → Instr) (f : IHdr → W32 → W32 → BitVec 64) : Prop :=
  (i = .add ∧ f = fun _ a b => (a + b).setWidth 64)
  ∨ (i = .sub ∧ f = fun _ a b => (a - b).setWidth 64)
  ∨ (i = .adds ∧ f = fun h a b => clampTo (lowest h h.u) (highest h h.u) (numberOf h a + numberOf h b))
  ∨ (i = .subs ∧ f = fun h a b => clampTo (lowest h h.u) (highest h h.u) (numberOf h a - numberOf h b))
  ∨ (i = .min ∧ f = fun h a b => (if numberOf h b < numberOf h a then b else a).setWidth 64)
  ∨ (i = .max ∧ f = fun h a b => (if numberOf h a < numberOf h b then b else a).setWidth 64)
  ∨ (i = .and ∧ f = fun _ a b => (a &&& b).setWidth 64)
  ∨ (i = .or ∧ f = fun _ a b => (a ||| b).setWidth 64)
  ∨ (i = .xor ∧ f = fun _ a b => (a ^^^ b).setWidth 64)
  ∨ (i = .shl ∧ f = fun _ (a n : W32) => if 32 ≤ n.toNat % 64 then 0 else (a <<< (n.toNat % 64)).setWidth 64)
  ∨ (i = .shr ∧ f = fun h a (n : W32) => (BitVec.ofInt 32 (numberOf h a / 2 ^ (n.toNat % 64))).setWidth 64)

/-- R223: the instructions d ← op s, the X fields that are not reserved, and their results; MOV with SZ other than D. -/
def twoOperand (i : IHdr → Opd → Opd → Instr) (ok : IHdr → Prop) (f : IHdr → W32 → BitVec 64) : Prop :=
  (i = .mov ∧ (ok = fun h => h.x = 0) ∧ f = fun _ a => a.setWidth 64)
  ∨ (i = .neg ∧ (ok = fun h => h.x = 0) ∧ f = fun _ a => (-a).setWidth 64)
  ∨ (i = .abs ∧ (ok = fun h => h.x = 0) ∧ f = fun h a => clampTo (lowest h false) (highest h false) (numberOf h a).natAbs)
  ∨ (i = .not ∧ (ok = fun h => h.x = 0) ∧ f = fun _ a => (~~~a).setWidth 64)
  ∨ (i = .ext ∧ (ok = fun h => fld h.x 10 6 = 0 ∧ fld h.x 0 5 + fld h.x 5 5 + 1 ≤ 32) ∧
      f = fun h a =>
        let v : Nat := a.toNat / 2 ^ fld h.x 0 5 % 2 ^ (fld h.x 5 5 + 1)
        BitVec.ofInt 64 (if h.u = true ∨ v < 2 ^ fld h.x 5 5 then (v : Int) else (v : Int) - 2 ^ (fld h.x 5 5 + 1)))
  ∨ (i = .parity ∧ (ok = fun h => h.x = 0) ∧ f = fun h a => BitVec.ofNat 64 (b2n (parityBit a.toNat (bitsOf h))))
  ∨ (i = .brev ∧ (ok = fun h => fld h.x 5 11 = 0 ∧ fld h.x 0 5 + 1 ≤ bitsOf h) ∧ f = fun h a => BitVec.ofNat 64 (reverseBits a.toNat (fld h.x 0 5 + 1)))

/-- R216: the address register that an operand updates. -/
def steps : Opd → Option (Fin 16)
  | .pinc n _ => some n
  | .pdec n _ => some n
  | .circ n _ _ => some n
  | .node n _ true _ _ => some n
  | _ => none

/-- R216, R218: the value of an operand that makes no access: a register or an immediate. -/
def plainValue (s : State) (h : IHdr) : Opd → Option W32
  | .imm v => some (v.signExtend 32)
  | .immx v => some v
  | .areg n => some (extend h.sz h.u ((areg s n).setWidth 64))
  | _ => none

/-- R206: program RAM, data RAM or Granary. -/
def inMemory (a : Nat) : Prop := a < 0x40000 ∨ (0x100000 ≤ a ∧ a < 0x120000) ∨ (0x200000 ≤ a ∧ a < 0x300000)

/-- What an instruction that writes no register of the block and no peripheral leaves alone: everything outside Carud, memory, time and
what reads of registers change; and in Carud all but the named fields. -/
def carudOnly (s t : State) : Prop :=
  t.pwr = s.pwr ∧ t.regs = s.regs ∧ t.out = s.out ∧ t.win = s.win ∧ t.rq = s.rq ∧ t.bq = s.bq ∧ t.pa = s.pa ∧ t.jtag = s.jtag
  ∧ t.fw = s.fw ∧ t.pending = s.pending ∧ t.zon.sram = s.zon.sram ∧ t.mem.granFen = s.mem.granFen
  ∧ t.beat = { s.beat with clk := t.beat.clk, now := t.beat.now, free := t.beat.free }
  ∧ t.cpu = { s.cpu with
      a := t.cpu.a, mq := t.cpu.mq, mqstat := t.cpu.mqstat, flight := t.cpu.flight, cyc := t.cpu.cyc, cychi := t.cpu.cychi
      timer := t.cpu.timer, timerClk := t.cpu.timerClk, evt := t.cpu.evt, pc := t.cpu.pc, lpc := t.cpu.lpc, lpdepth := t.cpu.lpdepth
      rs := t.cpu.rs, fresh := false, gather := none, oldCode := t.cpu.oldCode, wrote := t.cpu.wrote }

/-! ### Parcels as a port receives them -/

/-- R309: the commands that receive a parcel, and the type each takes. -/
def rxCommand (c : Fin 6 → RxParcel → Instr) (typ : BitVec 6) : Prop :=
  (c = .reportRx ∧ typ = tyReport) ∨ (c = .bulkRx ∧ typ = tyBulk) ∨ (c = .alertRx ∧ typ = tyAlert) ∨ (c = .fenceRx ∧ typ = tyFence)
  ∨ (c = .fenceackRx ∧ typ = tyFenceack) ∨ ((∃ est, c = fun k x => .beatRx k x est) ∧ typ = tyBeat) ∨ (c = .grantRx ∧ typ = tyGrant)
  ∨ (c = .helloRx ∧ typ = tyHello) ∨ (c = .enumRx ∧ typ = tyEnum) ∨ (c = .winreqRx ∧ typ = tyWinreq) ∨ (c = .winrspRx ∧ typ = tyWinrsp)
  ∨ (c = .bootimgRx ∧ typ = tyBootimg) ∨ (c = .heartbeatRx ∧ typ = tyHeartbeat) ∨ (c = .takeoverRx ∧ typ = tyTakeover)

/-- R308: a whole parcel at a port that listens. -/
def lineGood (s : State) (k : Fin 6) (x : RxParcel) : Prop :=
  linkRuns s = true ∧ s.pwr.powered = true ∧ (getPort s k).st ≠ .fenced ∧ portEnabled s k = true
  ∧ x.viol = false ∧ x.p.payload.length = x.p.len.toNat ∧ x.p.len.toNat ≤ 252

/-- R313: the port is UP and the parcel is the next in sequence. -/
def inOrder (s : State) (k : Fin 6) (x : RxParcel) : Prop := (getPort s k).st = .up ∧ x.p.linkseq = nextSeq (getPort s k).rxSeq

/-- R308, R313: the parcel is accepted as one of type `typ`. -/
def accepted (s : State) (k : Fin 6) (x : RxParcel) (typ : BitVec 6) : Prop :=
  lineGood s k x ∧ x.crc = maskedCrc x.p ∧ x.p.typ = typ ∧ (isSequenced typ = true → inOrder s k x)

/-- What acceptance itself changes: the port's last LINKSEQ received in order. -/
def takenIn (s : State) (k : Fin 6) (x : RxParcel) : State := setPort s k (fun p => { p with rxSeq := x.p.linkseq })

end Sys2Proof.Machine
end

