-- ==== Sys2Proof/Certificates/Slice0/Obligations.lean ====
section
/-! DEFINITION. The statements for the provers, by chapter. A statement of the form `exec c s = .next t` says where command c completes,
its result, and by the equation its frame: what t does not name is as it was. -/
open Sys2Proof Sys2Proof.Machine

/-! ### The queue and reset -/

/-- A step runs the command at the front of the queue on the state with the queue's rest; on an empty queue one SENSE clock passes
(the model's choice, log 2). -/
def Obligations.StepRunsFrontCommand : Prop :=
  (∀ (s : State) (c : Instr) (rest : List Instr), step { s with pending := c :: rest } = exec c { s with pending := rest })
  ∧ (∀ s : State, s.pending = [] → step s = .next (idle s))

/-- R8, R101, R144, R177, R204, R213: what reset leaves, at words whose reset value the tables give; that every byte of memory reads 0
is the model's choice (log 6). -/
def Obligations.ResetLeavesTheTablesValues : Prop :=
  reg State.reset 0x500 = 0x0400 ∧ (List.range 8).map (fun i => (reg State.reset (0x508 + i)).toNat) = [50, 56, 62, 70, 80, 100, 125, 200]
  ∧ reg State.reset 0x600 = 0x0E40 ∧ reg State.reset 0x1001 = 0x1F84 ∧ reg State.reset 0x4802 = 0x0070
  ∧ reg State.reset 0x10000 = 0x000C ∧ reg State.reset 0x1601 = 0xFFFF
  ∧ (∀ key, stg State.reset key = reg State.reset key)
  ∧ State.reset.pwr.boot = .reset ∧ State.reset.pwr.irqstat = 0 ∧ State.reset.beat.frameSeq = 0
  ∧ (∀ z : Fin 32, (getZone State.reset z).trip = true) ∧ (∀ k : Fin 4, (getPermit State.reset k).cmd = false)
  ∧ (∀ n : Fin 16, areg State.reset n = 0) ∧ State.reset.cpu.pr = 1 ∧ (∀ a, rd8 State.reset a = 0)
  ∧ (∀ slot : BitVec 6, State.reset.flt.log.getD slot.toNat none = none) ∧ State.reset.pending = []
  ∧ State.reset.stored = true

/-- R341, R392: power-on reset and RESET_n bring every register to its reset value; what lies outside the device stays (log 73):
the supplies, the levels read back at the permit outputs, the flash, time, and the commands that wait. AONSCR survives RESET_n (R364).
Between 100 ns and 1 us either may happen. The releases change the one level they name. -/
def Obligations.ResetsReturnEveryRegister : Prop :=
  (∀ s : State, exec .powerOnReset s = .next { State.reset with
      pwr := { State.reset.pwr with powered := false, rstLow := s.pwr.rstLow, vhvOk := s.pwr.vhvOk, vfldOk := s.pwr.vfldOk
                                    hostOk := s.pwr.hostOk, flash := s.pwr.flash }
      beat := { State.reset.beat with now := s.beat.now, free := s.beat.free }
      out := { State.reset.out with permits := s.out.permits.map (fun p => { out := p.out }) }
      pending := s.pending })
  ∧ (∀ (s : State) (ns : Nat),
      let r (n : Nat) : State := { State.reset with
        pwr := { State.reset.pwr with powered := s.pwr.powered, rstLow := true, vhvOk := s.pwr.vhvOk, vfldOk := s.pwr.vfldOk
                                      hostOk := s.pwr.hostOk, flash := s.pwr.flash, aonscr := s.pwr.aonscr }
        beat := { State.reset.beat with now := s.beat.now, free := n }
        out := { State.reset.out with permits := s.out.permits.map (fun p => { out := p.out }) }
        jtag := s.jtag
        pending := s.pending }
      (1000 ≤ ns → exec (.resetNAssert ns) s = .next (r s.beat.free))
      ∧ (ns < 100 → exec (.resetNAssert ns) s = .next s)
      ∧ (100 ≤ ns → ns < 1000 →
          exec (.resetNAssert ns) s = .next (r (s.beat.free + 1))
          ∨ exec (.resetNAssert ns) s = .next { s with beat := { s.beat with free := s.beat.free + 1 } }))
  ∧ (∀ s : State, exec .powerOnResetRelease s = .next { s with pwr := { s.pwr with powered := true } })
  ∧ (∀ s : State, exec .resetNRelease s = .next { s with pwr := { s.pwr with rstLow := false } })

/-! ### Boot -/

/-- R14, R15, R355, R356, R363, R179: at the end of RESET the straps give the role and the boot source, CLOCKS begins, and the zone SRAM is zero.
The level of ROLE is in thousandths of VDDIO.
R356, R15, R339: when the PLLs lock, the domains run, after DORMANT with fill on the links below, and the role and the boot source give the
next boot state; an undefined role ends in STRAPFLT, a manager that should boot from its links in BOOTFLT. A PLL that does not lock ends in
BOOTFLT whatever the role is, so that STRAPFLT is entered at CLOCKS_LOCKED alone (the model's reading, log 63). R358: a flash load reads the 32 bytes of the header with command 0x03 at 10 MHz, and the rest with the command, the addressing, the
clock and the dummy clocks that FLRD names (read command 3 is reserved: a free value, log 131). -/
def Obligations.StrapsAndClocksDecideTheBoot : Prop :=
  (∀ (s : State) (level : Nat) (src : BitVec 2), s.pwr.boot = .reset → s.pwr.powered = true → s.pwr.rstLow = false →
    ∃ role, exec (.resetEnd level src) s = .next { s with
        pwr := { s.pwr with role := role, bootSrc := src, boot := .clocks }
        zon := { s.zon with sram := [], bad := [] } }
      ∧ (level ≤ 200 → role = .worker)
      ∧ (400 ≤ level → level ≤ 600 → role = .managerB)
      ∧ (800 ≤ level → role = .managerA)
      ∧ (200 < level → level < 400 → role = .none)
      ∧ (600 < level → level < 800 → role = .none))
  ∧ (∀ (s : State) (flash : List Byte), s.pwr.boot = .clocks → s.pwr.refStop = false →
    let up (b : Boot) (s : State) : State := { s with
      pwr := { s.pwr with flash := flash, vok := true, refOk := true, sense := .run, core := .run, link := .run, boot := b,
                            perfNow := 0, perfTgt := 0, perfBusy := false }
      beat := { s.beat with no := if s.pwr.fromDormant then s.pwr.savedBeat + 1 else 0, clk := 0 }
      lnk := { s.lnk with line := if s.pwr.fromDormant then fillLine s else s.lnk.line } }
    let load (b : Boot) (s : State) : State := { (up b s) with pwr := { (up b s).pwr with loaded := false } }
    (s.pwr.role = .none → exec (.clocksLocked flash) s = .next (up .strapflt s))
    ∧ (s.pwr.role ≠ .none → s.pwr.bootSrc = 2 → exec (.clocksLocked flash) s = .next (load .hostload s))
    ∧ (s.pwr.role ≠ .none → s.pwr.bootSrc = 0 → isManager s = true →
        exec (.clocksLocked flash) s = .next { (load .bootflt s) with lnk := { (up .bootflt s).lnk with imgGot := 0, imgLen := 0 } })
    ∧ (s.pwr.role = .worker → s.pwr.bootSrc = 0 →
        exec (.clocksLocked flash) s = .next { (load .load s) with lnk := { (up .load s).lnk with imgGot := 0, imgLen := 0 } })
    ∧ (s.pwr.role ≠ .none → s.pwr.bootSrc = 1 ∨ s.pwr.bootSrc = 3 → s.stored = true →
        let flrd := flash.getD 8 0
        let len := min 1048576 (fromBe ((flash.drop 4).take 4))
        ∃ mem r, exec (.clocksLocked flash) s = .next { (load .load s) with
            pwr := { (load .load s).pwr with flashReads := [⟨0x03, false, 10000, 0, 0, 32⟩, r] }, mem := mem }
          ∧ r.adr4 = bit flrd 2 ∧ r.first = 32 ∧ r.count = len - 32
          ∧ r.khz = [10000, 20000, 25000, 50000].getD (fld flrd 4 2) 0
          ∧ (fld flrd 0 2 = 0 → r.cmd = (if bit flrd 2 then 0x13 else 0x03) ∧ r.dummy = 0)
          ∧ (fld flrd 0 2 = 1 → r.cmd = (if bit flrd 2 then 0x3C else 0x3B) ∧ r.dummy = 8)
          ∧ (fld flrd 0 2 = 2 → r.cmd = (if bit flrd 2 then 0x6C else 0x6B) ∧ r.dummy = 8)
          ∧ (∀ i, i < flash.length → i < 32 → sget zero8 mem.bytes (granBase + i) = flash.getD i 0)
          ∧ (fld flrd 0 2 ≠ 3 → ∀ i, i < flash.length → i < len → sget zero8 mem.bytes (granBase + i) = flash.getD i 0)))
  ∧ (∀ s : State, s.pwr.boot = .clocks → exec .clocksTimeout s = .next { s with pwr := { s.pwr with boot := .bootflt } })

/-- R356, R359, R362, R16: an image that fails its check is logged and ends in BOOTFLT, or, with source 3, in HOSTLOAD. A good one is
unpacked: a manager enters TREE, manager A as the ringmaster; a worker that holds an address enters RUN, where Carud starts at vector 0,
halted where a record of the image has set HALT, and BOOTDONE is set; a worker without one waits in LOAD. While REFCLK is lost (R344), and before
the image has come, nothing happens. -/
def Obligations.ImageCheckDecidesBoot : Prop :=
  ∀ s : State, s.pwr.boot = .load → s.pwr.loaded = false →
    (s.pwr.refStop = true ∨ (s.pwr.bootSrc = 0 ∧ linkImageIn s = false) → exec .loadComplete s = .next s)
    ∧ (s.pwr.refStop = false → (s.pwr.bootSrc = 0 → linkImageIn s = true) →
    (∀ why, imageFault s = some why →
      exec .loadComplete s = .next (logEv { s with pwr := { s.pwr with boot := if s.pwr.bootSrc = 3 then .hostload else .bootflt } } 0x1B 0 (w16 why)))
    ∧ (imageFault s = none → s.pwr.reload = false → isManager s = true →
      exec .loadComplete s = .next { (unpack s) with
        pwr := { (unpack s).pwr with boot := .tree }
        lnk := { (unpack s).lnk with
          ring := s.pwr.role == .managerA, stby := false, service := 0, hbSeen := false, enumerated := false, bcastDone := false } })
    ∧ (imageFault s = none → s.pwr.reload = false → isManager s = false → s.lnk.addr ≠ 0 →
      ∃ t, exec .loadComplete s = .next t ∧ t.pwr.boot = .run ∧ t.cpu.pc = 0 ∧ bit t.pwr.irqstat 15 = true ∧ t.beat.first = true
        ∧ ((unpack s).cpu.fen = false → t.cpu.st = if (unpack s).cpu.halt then .halted else .running)
        ∧ t.lnk.addr = (unpack s).lnk.addr ∧ t.flt = (unpack s).flt)
    ∧ (imageFault s = none → s.pwr.reload = false → isManager s = false → s.lnk.addr = 0 →
      exec .loadComplete s = .next (unpack s) ∧ (unpack s).pwr.boot = .load ∧ (unpack s).pwr.loaded = true))

/-- R255, R267, R268, R269, R276: BOOTCTL, written by either of its two rows. A write with key 0xC3 in RUN or HOSTLOAD sets LOCK when bit 0 is 1,
and nothing clears it, GO or not; a write without the key does nothing; in other boot states a write only sets BOOTWR, and where the port does
not answer there is none. GO (bit 1) in HOSTLOAD, with a good host load, takes a manager to TREE and a worker that holds an address to RUN; one
that fails its check ends in BOOTFLT with its entry; elsewhere, and once a load has been taken, GO does nothing. A worker without an address waits
in HOSTLOAD for one (the model's reading, log 62). A half held in the window is committed first: u is the state after that. -/
def Obligations.BootControlNeedsItsKey : Prop :=
  ∀ c : W16 → Instr, c = .microLock ∨ c = .bootGo → ∀ (s : State) (w : W16),
    let u := settle s
    let v : State := { u with pwr := { u.pwr with lock := u.pwr.lock || bit w 0 } }
    let go := s.pwr.boot = .hostload ∧ s.pwr.loaded = false ∧ bit w 1 = true
    (hostAnswers s = false → exec (c w) s = .next s)
    ∧ (hostAnswers s = true → inRun s = false → s.pwr.boot ≠ .hostload → exec (c w) s = .next { s with pwr := { s.pwr with bootWr := true } })
    ∧ (hostAnswers s = true → inRun s = true ∨ s.pwr.boot = .hostload →
      (fld w 8 8 ≠ 0xC3 → exec (c w) s = .next u)
      ∧ (fld w 8 8 = 0xC3 → ¬ go → exec (c w) s = .next v)
      ∧ (fld w 8 8 = 0xC3 → go →
        (∀ why, hostLoadFault v = some why → exec (c w) s = .next (logEv { v with pwr := { v.pwr with boot := .bootflt } } 0x1B 0 (w16 why)))
        ∧ (hostLoadFault v = none →
          ∃ t, exec (c w) s = .next t ∧ t.pwr.loaded = true ∧ t.flt = u.flt ∧ (u.pwr.lock = true ∨ bit w 0 = true → t.pwr.lock = true)
            ∧ (s.pwr.reload = false → isManager s = true → t.pwr.boot = .tree ∧ t.lnk.ring = (s.pwr.role == .managerA) ∧ t.pwr.lock = v.pwr.lock)
            ∧ (s.pwr.reload = false → isManager s = false → s.lnk.addr ≠ 0 → t.pwr.boot = .run ∧ t.cpu.pc = 0)
            ∧ (s.pwr.reload = false → isManager s = false → s.lnk.addr = 0 → t.pwr.boot = .hostload ∧ t.pwr.lock = v.pwr.lock))))

/-! ### Supplies and the reference clock -/

/-- R343, R159, R193, R201, R387: what the loss and the return of each supply does. The loss of VHV marks the ratiometric conversions in
their slot; without VFLD every permit is commanded OFF and every lamp is off; without VDDIO_H the device runs on.
R344: when REFCLK fails, permits and lamps go off, the running domains stop with their registers kept, REFLOSS is set, and neither
boot state nor mode changes; the steps that the carousel's run has completed count as NOISY where they are (R95), and the run is over; when REFCLK
returns, the domains of the state and the mode run again, but for a CORE that the entry to HOLD or DORMANT has stopped (R349), at the level that
PERF.REQ names by then (R271), and the entry is written. That the memories are kept too is the model's reading (log 68). -/
def Obligations.SuppliesAndReferenceClock : Prop :=
  (
    ∀ s : State,
      (s.pwr.vhvOk = true →
        let aux := { s.aux with flight := s.aux.flight.map (fun c => if slotNow s c && ratiometric s c.ch then { c with clip := true } else c) }
        (s.pwr.powered = true → s.pwr.boot ≠ .reset →
          exec .vhvLoss s = .next (logEv { s with pwr := { s.pwr with vhvOk := false, vhvLoss := true }, aux := aux } 0x19 0 0))
        ∧ (s.pwr.boot = .reset → exec .vhvLoss s = .next { s with pwr := { s.pwr with vhvOk := false }, aux := aux }))
      ∧ exec .vhvRestore s = .next { s with pwr := { s.pwr with vhvOk := true } }
      ∧ (∃ t, exec .vfldLoss s = .next t ∧ t = { s with pwr := { s.pwr with vfldOk := false }, out := t.out }
          ∧ t.out.remotes = s.out.remotes
          ∧ (∀ k : Fin 4, (getPermit t k).cmd = false ∧ (getPermit t k).fault = (getPermit s k).fault)
          ∧ (∀ k : Fin 8, (getLamp t k).on = false ∧ (getLamp t k).diag = (getLamp s k).diag))
      ∧ exec .vfldRestore s = .next { s with pwr := { s.pwr with vfldOk := true } }
      ∧ exec .hostSupplyLoss s = .next { s with pwr := { s.pwr with hostOk := false } }
      ∧ exec .hostSupplyRestore s = .next { s with pwr := { s.pwr with hostOk := true } })
  ∧ (
    (∀ s : State, s.pwr.powered = true → s.pwr.boot ≠ .reset → s.pwr.refStop = false →
      ∃ t, exec .refclkLoss s = .next t
        ∧ t = { s with
            pwr := { s.pwr with refLoss := true, refOk := false, refStop := true
                                sense := domStop s.pwr.sense, core := domStop s.pwr.core, link := domStop s.pwr.link }
            car := { s.car with run := none, noisycnt := t.car.noisycnt }
            out := t.out }
        ∧ (s.car.run = none → t.car.noisycnt = s.car.noisycnt)
        ∧ (∀ run, s.car.run = some run → t.car.noisycnt = satAdd s.car.noisycnt ((runAt s (carClk s) run).noisy - run.noisy))
        ∧ (∀ k : Fin 4, (getPermit t k).cmd = false) ∧ (∀ k : Fin 8, (getLamp t k).on = false))
    ∧ (∀ s : State, s.pwr.refStop = true →
      ∃ t, exec .refclkRestore s = .next t ∧ t.pwr.refStop = false ∧ t.pwr.refOk = true ∧ t.pwr.refLoss = s.pwr.refLoss
        ∧ t.pwr.boot = s.pwr.boot ∧ t.pwr.mode = s.pwr.mode ∧ t.mem = s.mem ∧ t.cpu = s.cpu ∧ t.flt.logcount = s.flt.logcount + 1
        ∧ (s.pwr.boot = .run → s.pwr.mode = .scan → t.pwr.sense = .run ∧ t.pwr.link = .run
            ∧ (scanEnded s = true → t.pwr.core = s.pwr.core ∧ t.pwr.perfNow = s.pwr.perfNow)
            ∧ (scanEnded s = false → t.pwr.core = .run ∧ t.pwr.perfBusy = false
                ∧ t.pwr.perfNow = if fld s.mem.lost 16 4 = 0 then perfLevel s else 0))
        ∧ (s.pwr.boot = .run → s.pwr.mode = .hold → t.pwr.sense = s.pwr.sense ∧ t.pwr.core = s.pwr.core ∧ t.pwr.link = s.pwr.link)))

/-! ### Modes, levels and wakes -/

/-- R270, R276: a write of MODECTL with key 0xA5 sets REQ and, with no change in progress, begins the change: MBUSY is 1 until it ends.
Without the key nothing happens. A change toward HOLD or DORMANT turns every permit OFF at once (R193); a host write that wakes is recorded
(R351), one that comes during the entry is held (R350), and a later one for HOLD or DORMANT takes it back. A half held in the window is
committed first: u is the state after that. -/
def Obligations.ModeRequestBeginsTheChange : Prop :=
  ∀ (s : State) (w : W16), hostAnswers s = true → inRun s = true →
    let u := settle s
    (fld w 8 8 ≠ 0xA5 → exec (.modeRequest w) s = .next u)
    ∧ (fld w 8 8 = 0xA5 → fld w 0 2 = 1 → s.pwr.mode = .scan → s.pwr.change = .idle →
        exec (.modeRequest w) s = .next { u with pwr := { u.pwr with reqMode := .watch, change := .toWatch, mbusy := true } })
    ∧ (fld w 8 8 = 0xA5 → 2 ≤ fld w 0 2 → s.pwr.mode = .scan ∨ s.pwr.mode = .watch → s.pwr.change = .idle →
        ∃ t, exec (.modeRequest w) s = .next t
          ∧ t = { u with
              pwr := { (unholdWake u 0).pwr with reqMode := modeOf (fld w 0 2), change := .entering (modeOf (fld w 0 2)) 4, mbusy := true }
              out := t.out }
          ∧ (∀ k : Fin 4, (getPermit t k).cmd = false))
    ∧ (∀ m n, s.pwr.change = .entering m n → fld w 8 8 = 0xA5 →
        (fld w 0 2 ≤ 1 → s.pwr.wakeHeld = none →
          exec (.modeRequest w) s = .next { u with pwr := { u.pwr with reqMode := modeOf (fld w 0 2), wakeHeld := some (1, modeOf (fld w 0 2)) } })
        ∧ (2 ≤ fld w 0 2 → ∀ old, s.pwr.wakeHeld = some (1, old) →
          ∃ t, exec (.modeRequest w) s = .next t
            ∧ t = { u with pwr := { u.pwr with reqMode := modeOf (fld w 0 2), wakeHeld := none }, out := t.out }
            ∧ (∀ k : Fin 4, (getPermit t k).cmd = false)))
    ∧ (fld w 8 8 = 0xA5 → fld w 0 2 = 0 → s.pwr.mode = .hold → s.pwr.change = .idle →
        exec (.modeRequest w) s = .next { u with pwr := { u.pwr with
          wakecause := (u.pwr.wakecause &&& 0xFCFF) ||| 1 ||| 0x0200, irqstat := putBit u.pwr.irqstat 5 true
          reqMode := .scan, change := .resuming .scan, mbusy := true } })
    ∧ (fld w 8 8 = 0xA5 → fld w 0 2 ≤ 1 → s.pwr.mode = .dormant → s.pwr.change = .idle →
        ∃ t, exec (.modeRequest w) s = .next t ∧ t.pwr.boot = .clocks ∧ t.pwr.reqMode = modeOf (fld w 0 2)
          ∧ t.pwr.change = .resuming (modeOf (fld w 0 2)) ∧ t.pwr.fromDormant = true ∧ t.zon.sram = [] ∧ t.mem = u.mem)

/-- R349: how each change ends. WATCH is entered at a frame boundary, where CORE stops unless a write of one of Carud's instructions waits, for
which the entry waits (the model's reading of R257, log 138); no change ends while REFCLK is lost (R344). Entry to HOLD or DORMANT, after the hold-over beats, stops SENSE and LINK;
leaving HOLD starts SENSE again, and CORE for SCAN; DORMANT from HOLD switches the domains off. Carud's multiplications in flight complete
before CORE stops (R257).
R270, R350: a wake held during the entry acts once the entry has completed, which has set MODEDONE. -/
def Obligations.ModeChangesComplete : Prop :=
  (∀ s : State, atBoundary s = false ∨ s.pwr.refStop = true → exec .watchEntry s = .next s)
  ∧ (∀ s : State, s.pwr.refStop = true → exec .holdoverEnd s = .next s)
  ∧ (∀ s : State, atBoundary s = true → s.pwr.refStop = false → s.pwr.change = .toWatch → isManager s = false → coreRuns s = true →
      s.pa.held ≠ none ∨ s.pa.late ≠ [] →
    ∃ t, exec .watchEntry s = .next t ∧ t.pwr.mode = s.pwr.mode ∧ t.pwr.change = .toWatch ∧ t.pwr.core = .run ∧ t.pa = s.pa ∧ t.regs = s.regs)
  ∧ (∀ s : State, atBoundary s = true → s.pwr.refStop = false → s.pwr.change = .toWatch → s.pwr.reqMode = .watch → s.pwr.wakeHeld = none →
      coreRuns s = false ∨ (s.pa.held = none ∧ s.pa.late = []) →
    ∃ t, exec .watchEntry s = .next t ∧ t.pwr.mode = .watch ∧ t.pwr.change = .idle ∧ t.pwr.mbusy = false ∧ bit t.pwr.irqstat 6 = true
      ∧ (s.pwr.core = .run → t.pwr.core = .retention ∧ t.cpu.flight = []) ∧ t.regs = s.regs ∧ t.jtag = s.jtag ∧ t.win = s.win)
  ∧ (∀ (s : State), s.pwr.refStop = false → s.pwr.change = .entering .hold 0 → s.pwr.reqMode = .hold → s.pwr.wakeHeld = none →
    ∃ t, exec .holdoverEnd s = .next t ∧ t.pwr.mode = .hold ∧ t.pwr.change = .idle ∧ t.pwr.mbusy = false ∧ bit t.pwr.irqstat 6 = true
      ∧ t.pwr.sense = .retention ∧ t.pwr.core = .retention ∧ t.pwr.link = .retention ∧ t.regs = s.regs
      ∧ t.mem = { s.mem with lost := t.mem.lost } ∧ (s.pwr.core = .off → t.mem.lost = s.mem.lost)
      ∧ (s.pwr.core ≠ .off → t.mem.lost = s.mem.lost ||| notRetained s)
      ∧ (∀ k : Fin 8, (getLamp t k).on = false))
  ∧ (∀ (s : State) (x : BitVec 5 × Mode), s.pwr.refStop = false → s.pwr.change = .entering .hold 0 → s.pwr.reqMode = .hold → s.pwr.wakeHeld = some x → bit x.1 0 = false →
    ∃ t, exec .holdoverEnd s = .next t ∧ t.pwr.mode = .hold ∧ t.pwr.wakeHeld = none ∧ bit t.pwr.irqstat 6 = true ∧ bit t.pwr.irqstat 5 = true
      ∧ t.pwr.reqMode = heldTarget s x ∧ t.pwr.change = .resuming (heldTarget s x) ∧ t.pwr.mbusy = true)
  ∧ (∀ (s : State), s.pwr.refStop = false → s.pwr.change = .entering .dormant 0 → s.pwr.reqMode = .dormant → s.pwr.wakeHeld = none →
    ∃ t, exec .holdoverEnd s = .next t ∧ t.pwr.mode = .dormant ∧ t.pwr.change = .idle ∧ t.pwr.mbusy = false
      ∧ t.pwr.sense = .off ∧ t.pwr.core = .off ∧ t.pwr.link = .off ∧ t.pwr.savedBeat = s.beat.no ∧ t.pwr.aonscr = s.pwr.aonscr
      ∧ t.ana.elFen = s.ana.elFen ∧ t.mem.granFen = s.mem.granFen ∧ t.cpu.fen = s.cpu.fen)
  ∧ (∀ s : State, s.pwr.change = .holdToDormant → s.pwr.reqMode = .dormant → s.pwr.wakeHeld = none →
    ∃ t, exec .dormantEntryFromHold s = .next t ∧ t.pwr.mode = .dormant ∧ t.pwr.change = .idle ∧ t.pwr.mbusy = false
      ∧ t.pwr.sense = .off ∧ t.pwr.core = .off ∧ t.pwr.link = .off ∧ t.pwr.savedBeat = s.beat.no)
  ∧ (∀ s : State, s.pwr.change = .watchToScan → s.pwr.core = .retention → s.pwr.refStop = false →
    ∃ t, exec .coreResumed s = .next t ∧ t.pwr.core = .run ∧ t.mem.lost = 0 ∧ t.regs = s.regs ∧ t.pwr.mode = s.pwr.mode
      ∧ (fld s.mem.lost 16 4 = 0 → fld s.mem.lost 20 2 = 0 → t.cpu = s.cpu))
  ∧ (∀ (s : State) (m : Mode), s.pwr.change = .resuming m → s.pwr.mode = .hold → s.pwr.reqMode = m → s.pwr.wakeHeld = none →
      s.pwr.refStop = false → s.mem.lost = 0 →
    ∃ t, exec .senseResumed s = .next t ∧ t.pwr.mode = m ∧ t.pwr.change = .idle ∧ t.pwr.mbusy = false ∧ t.pwr.sense = .run
      ∧ t.pwr.link = .run ∧ (m = .scan → t.pwr.core = .run) ∧ (m ≠ .scan → t.pwr.core = s.pwr.core) ∧ t.mem = s.mem ∧ t.cpu = s.cpu)

/-- R271, R8: a write of PERF stores REQ as it is written and begins the level change when the levels differ (3 acts as 2; a CORE in
retention changes none); it ends with NOW equal to the level asked for and MODEDONE. A half held in the window is committed first: u is the
state after that. -/
def Obligations.PerformanceLevelChanges : Prop :=
  (∀ (s : State) (w : W16), hostAnswers s = true → inRun s = true →
    let u := settle s
    let r : BitVec 2 := BitVec.ofNat 2 (fld w 0 2)
    let level : BitVec 2 := if r = 3 then 2 else r
    (coreRuns s = true → s.pwr.perfBusy = false → level ≠ s.pwr.perfNow →
      exec (.perfRequest w) s = .next { u with pwr := { u.pwr with perfReq := r, perfBusy := true, perfTgt := level } })
    ∧ (coreRuns s = true → s.pwr.perfBusy = false → level = s.pwr.perfNow →
      exec (.perfRequest w) s = .next { u with pwr := { u.pwr with perfReq := r } })
    ∧ (coreRuns s = false ∨ s.pwr.perfBusy = true → exec (.perfRequest w) s = .next { u with pwr := { u.pwr with perfReq := r } }))
  ∧ (∀ s : State, s.pwr.perfBusy = true → coreRuns s = true →
    (perfLevel s = s.pwr.perfTgt → exec .perfChangeDone s = .next { s with pwr := { s.pwr with
        perfNow := s.pwr.perfTgt, perfBusy := false, irqstat := putBit s.pwr.irqstat 6 true } })
    ∧ (perfLevel s ≠ s.pwr.perfTgt → exec .perfChangeDone s = .next { s with pwr := { s.pwr with
        perfNow := s.pwr.perfTgt, perfBusy := true, perfTgt := perfLevel s, irqstat := putBit s.pwr.irqstat 6 true } }))

/-- R339, R350, R351: in HOLD, WAKE_n low for 1 us (where enabled) and 2 us of activity on an enabled uplink (where enabled) wake the
device into the mode that WAKECFG names: WAKECAUSE takes the cause and the mode slept in, IRQSTAT.WAKE is set and the change begins. One that
comes while the device wakes already is recorded too, from DORMANT also while the clocks start, and REQ stands (the model's choice, log 130).
In SCAN neither does anything. -/
def Obligations.WakesAreRecorded : Prop :=
  (∀ (s : State) (ns : Nat), s.pwr.powered = true → inRun s = true → rbit (reg s) 0x1603 0 = true → 1000 ≤ ns →
    (s.pwr.mode = .hold → s.pwr.change = .idle →
      exec (.wakePin ns) s = .next { s with pwr := { s.pwr with
        wakecause := (s.pwr.wakecause &&& 0xFCFF) ||| 2 ||| 0x0200, irqstat := putBit s.pwr.irqstat 5 true, reqMode := wakeTarget s
        change := .resuming (wakeTarget s), mbusy := true } })
    ∧ (s.pwr.mode = .watch → s.pwr.change = .idle →
      exec (.wakePin ns) s = .next { s with pwr := { s.pwr with
        wakecause := (s.pwr.wakecause &&& 0xFCFF) ||| 2 ||| 0x0100, irqstat := putBit s.pwr.irqstat 5 true, reqMode := .scan
        change := .watchToScan, mbusy := true } })
    ∧ (s.pwr.mode = .scan → s.pwr.change = .idle → exec (.wakePin ns) s = .next s)
    ∧ (∀ m, s.pwr.mode = .hold → s.pwr.change = .resuming m →
      exec (.wakePin ns) s = .next { s with pwr := { s.pwr with
        wakecause := (s.pwr.wakecause &&& 0xFCFF) ||| 2 ||| 0x0200, irqstat := putBit s.pwr.irqstat 5 true } }))
  ∧ (∀ (s : State) (ns : Nat) (m : Mode), s.pwr.powered = true → s.pwr.boot = .clocks → s.pwr.fromDormant = true →
    rbit (reg s) 0x1603 0 = true → 1000 ≤ ns → s.pwr.mode = .dormant → s.pwr.change = .resuming m →
    exec (.wakePin ns) s = .next { s with pwr := { s.pwr with
      wakecause := (s.pwr.wakecause &&& 0xFCFF) ||| 2 ||| 0x0300, irqstat := putBit s.pwr.irqstat 5 true } })
  ∧ (∀ (s : State) (k : Fin 2) (ns : Nat), s.pwr.mode = .scan → exec (.linkActivityWake k ns) s = .next s)
  ∧ (∀ (s : State) (k : Fin 2) (ns : Nat), s.pwr.powered = true → inRun s = true → s.pwr.mode = .hold → s.pwr.change = .idle →
    isUplink s k = true → portEnabled s k = true → rbit (reg s) 0x1500 6 = true → 2000 ≤ ns →
    exec (.linkActivityWake k ns) s = .next { s with pwr := { s.pwr with
      wakecause := (s.pwr.wakecause &&& 0xFCFF) ||| 8 ||| 0x0200, irqstat := putBit s.pwr.irqstat 5 true, reqMode := wakeTarget s
      change := .resuming (wakeTarget s), mbusy := true } })

/-! ### The beat, fences and staged configuration -/

/-- R24, R25, R26, R267: every beat of the oscillator advances the beat number by one, begins a new phase and takes the period of its source
(the last measured one while the source is lost, the ringmaster's own, else what the oscillator of a device with BEATs has measured); in a
running device that nothing stops or changes it begins a frame, with the next frame number and the FRAME event. Beats that the BEAT ball
gives are its edges (R363). During EXTEST the carousel, the zone unit and the permit logic hold (R401): no frame begins; that the beats are
counted on is the model's reading (log 69). -/
def Obligations.EveryBeatCountsAndBeginsAFrame : Prop :=
  ∀ (s : State) (measured : Nat),
    (beatsOccur s = true → ballFollowed s = false →
      ∃ t, exec (.beat measured) s = .next t ∧ t.beat.no = s.beat.no + 1 ∧ t.beat.clk = 0 ∧ t.beat.period = beatPeriod s measured
        ∧ (stillLost s = true → t.beat.period = s.beat.period)
        ∧ (stillLost s = false → s.lnk.ring = true → t.beat.period = 200 * min 20000 (max 400 (rf (reg s) 0x1604 1 15)))
        ∧ (stillLost s = false → s.lnk.ring = false → bit s.lnk.beatSeen (b2n s.lnk.beatB) = true → 80000 ≤ measured → measured ≤ 4000000 →
            t.beat.period = measured)
        ∧ t.beat.now = s.beat.now ∧ t.regs.staged = s.regs.staged ∧ t.jtag = s.jtag ∧ t.win = s.win
        ∧ (isManager s = false → t.beat.lost = stillLost s)
        ∧ (inRun s = true → s.pwr.mode = .scan → s.pwr.change = .idle → s.ana.startCal = 0 → s.beat.running = true
            → s.lnk.strapDue = false →
            (s.jtag.ir ≠ .extest → t.beat.frameSeq = s.beat.frameSeq + 1 ∧ t.beat.running = true ∧ t.beat.scanFrames = s.beat.scanFrames + 1
              ∧ (coreRuns s = true → bit t.cpu.evt 1 = true))
            ∧ (s.jtag.ir = .extest → t.beat.frameSeq = s.beat.frameSeq ∧ t.beat.running = true ∧ t.zon = s.zon ∧ t.out.permits = s.out.permits
              ∧ t.car = s.car)))
    ∧ (beatsOccur s = false ∨ ballFollowed s = true → exec (.beat measured) s = .next s)

/-- R25, R363: BEAT_EDGE on a ringmaster whose source is the BEAT ball. An interval outside its range ends the run of agreeing ones; one that
disagrees begins a run; the eighth that agrees within 0.1 % makes the ringmaster follow the ball from the next edge on, and each edge is then
a beat, whose period is the measured one. Without the ball as its source an edge does nothing.
R26: BEAT_LOST. When the beat source is lost, BEATLOST is set, the lock is lost, the ball is no longer followed, the oscillator runs on,
and the loss is logged and raised once. A device whose source cannot be lost, or whose other uplink still brings BEATs (R319), is as it was. -/
def Obligations.BeatSourcesAreFollowedAndLost : Prop :=
  (∀ (s : State) (n : Nat), beatsOccur s = true → s.lnk.ring = true → rbit (reg s) 0x1604 0 = true →
    (n < 80000 ∨ 4000000 < n → exec (.beatEdge n) s = .next { s with beat := { s.beat with ballRun := 0 } })
    ∧ (s.beat.following = false → 80000 ≤ n → n ≤ 4000000 →
      (s.beat.ballRun = 0 ∨ s.beat.ballPer < 1000 * ((s.beat.ballPer : Int) - n).natAbs →
        exec (.beatEdge n) s = .next { s with beat := { s.beat with ballPer := n, ballRun := 1 } })
      ∧ (0 < s.beat.ballRun → s.beat.ballRun < 7 → 1000 * ((s.beat.ballPer : Int) - n).natAbs ≤ s.beat.ballPer →
        exec (.beatEdge n) s = .next { s with beat := { s.beat with ballRun := s.beat.ballRun + 1 } })
      ∧ (7 ≤ s.beat.ballRun → 1000 * ((s.beat.ballPer : Int) - n).natAbs ≤ s.beat.ballPer →
        exec (.beatEdge n) s = .next { s with beat := { s.beat with ballRun := 8, following := true } }))
    ∧ (s.beat.following = true → 80000 ≤ n → n ≤ 4000000 →
      ∃ t, exec (.beatEdge n) s = .next t ∧ t = beatStart { s with beat := { s.beat with lost := false } } n
        ∧ t.beat.no = s.beat.no + 1 ∧ t.beat.clk = 0 ∧ t.beat.period = n ∧ t.beat.now = s.beat.now ∧ t.regs.staged = s.regs.staged))
  ∧ (∀ (s : State) (n : Nat), s.lnk.ring = false ∨ rbit (reg s) 0x1604 0 = false → exec (.beatEdge n) s = .next s)
  ∧ (∀ s : State, beatsOccur s = true →
      (beatSourced s = true →
        ∃ t, exec .beatLost s = .next t ∧ t = { s with beat := t.beat, lnk := t.lnk, flt := t.flt, pwr := { s.pwr with irqstat := t.pwr.irqstat } }
          ∧ t.beat = { s.beat with lost := true, lock := false, lockRun := 0, following := false, ballRun := 0 }
          ∧ t.lnk = { s.lnk with beatSeen := putBit s.lnk.beatSeen (b2n s.lnk.beatB) false }
          ∧ (s.beat.lost = true → t.flt = s.flt ∧ t.pwr.irqstat = s.pwr.irqstat)
          ∧ (s.beat.lost = false → t.flt.logcount = s.flt.logcount + 1 ∧ t.pwr.irqstat = putBit s.pwr.irqstat 10 true
              ∧ (s.flt.log.length = 64 → (t.flt.log.getD (s.flt.logcount.toNat % 64) none).map (fun e => e.kind) = some 0x18)))
      ∧ (beatSourced s = false → exec .beatLost s = .next s))

/-- R29, R30, R31, R273: fences. ISSUE on a ringmaster in SCAN makes the next epoch wait for the frame boundary and clears every
acknowledgement. At the frame boundary the epoch takes force with its event; a staged configuration that fails a check is rejected whole, with
its interrupt; one that passes puts every word whose fields act at a fence into force. What a read returns does not change; away from a frame
boundary nothing does (R72). A half held in the window is committed by the write: u is the state after that. -/
def Obligations.FencesApplyStagedConfigurationWhole : Prop :=
  (∀ (s : State) (w : W16), hostAnswers s = true → inRun s = true → bit w 0 = true →
    let u := settle s
    (s.lnk.ring = true → s.pwr.mode = .scan →
      ∃ t, exec (.fenceIssue w) s = .next t ∧ t = { u with beat := t.beat, lnk := t.lnk }
        ∧ t.beat.fenceWait = some (curEpoch u + 1) ∧ t.beat.done = false ∧ t.beat.epoch = u.beat.epoch ∧ t.beat.no = u.beat.no
        ∧ (∀ m, m ∈ t.lnk.members → m.acked = false) ∧ t.lnk.members.length = s.lnk.members.length)
    ∧ (s.lnk.ring = false → exec (.fenceIssue w) s = .next u))
  ∧ (∀ (s : State) (e : Byte), s.beat.fenceWait = some e → s.pwr.mode = .scan → inRun s = true →
    (atBoundary s = true →
      ∃ t, exec .fenceApply s = .next t ∧ t.beat.epoch = e ∧ t.beat.fenceWait = none ∧ t.beat.first = false
        ∧ bit t.cpu.evt 2 = true ∧ t.regs.staged = s.regs.staged ∧ t.beat.no = s.beat.no
        ∧ (stagedFaults s ≠ [] → t.regs = s.regs ∧ t.car.act = s.car.act ∧ bit t.pwr.irqstat 9 = true)
        ∧ (stagedFaults s = [] → swf regReset s.regs.staged = true → swf regReset s.regs.force = true →
            (∀ x, x ∈ s.regs.auxWait → takesForce x.1 = .loop) →
            ∀ key, takesForce key = .fence → reg t key = stg s key))
    ∧ (atBoundary s = false → exec .fenceApply s = .next s))

/-! ### The carousel -/

/-- R84, R110, R124: a pass starts at the later of its slot offset, 20 us later in a frame with a forced gap, and the end of the last
pass; its candidate rows are formed, and one that runs for the first time is reseated. At another time, or out of its turn, it does not start. -/
def Obligations.PassStartsInItsSlot : Prop :=
  ∀ (s : State) (p : Fin 16), s.jtag.ir ≠ .extest → s.car.passes.length = 16 →
    (passRuns s p = true → (getPass s p).started = false → passEnded s p = false → earlierEnded s p = true → s.car.run = none →
      let at_ := max (slotClocks (reg s) (actProg s) p + (if s.ana.calGap then 4000 else 0)) s.car.time
      ∃ t, exec (.passStart p at_) s = .next t ∧ (getPass t p).started = true ∧ t.car.time = at_
        ∧ (getPass t p).cand = candidates (firstRun s p) p ∧ (getPass t p).seen = true
        ∧ ((getPass s p).seen = false → (getPass t p).bvalid = false ∧ (getPass t p).seat = if (getPass s p).pipe.isSome then 33 else 32)
        ∧ t.regs = s.regs ∧ t.beat = s.beat ∧ t.cpu = s.cpu
        ∧ ((getPass s p).seen = true → candidates s p = none →
            t = setPass { s with car := { s.car with time := t.car.time } } p (fun x => { x with started := true, cand := none })))
    ∧ ((getPass s p).started = true ∨ earlierEnded s p = false ∨ s.car.run.isSome = true → ∀ at_, exec (.passStart p at_) s = .next s)
    ∧ (∀ at_, at_ ≠ max (slotClocks (reg s) (actProg s) p + (if s.ana.calGap then 4000 else 0)) s.car.time → exec (.passStart p at_) s = .next s)

/-- R53, R77, R78, R79, R83: a code group (or the one step of a self pass) begins where the last one ended; with no quiet window imposed its
steps follow one another without a gap, each of the nominal length with its edges at the half period after the 40 ns of reset, and each
measures the charge of its columns; CARSTAT.PASS names the pass (R101), and nothing else changes. At another time it does not begin. -/
def Obligations.StepsOfAGroupFollowOneAnother : Prop :=
  ∀ (s : State) (p : Fin 16) (g : Nat) (q : GroupInput), s.jtag.ir ≠ .extest → passRuns s p = true →
    (getPass s p).started = true → s.car.run = none → isNext s p g = true →
    isListen (reg s) (actProg s) p = false → (isMutual (reg s) (actProg s) p = true → s.pwr.vhvOk = true) →
    s.car.time + groupClocks (reg s) (actProg s) p (runFq s p) ≤ deadlineAt s → activeSyns s p = [] →
    let len := stepClocks (reg s) (actProg s) p (runFq s p)
    let n := stepsPerGroup (reg s) (actProg s) p
    let edges := fun (j : Nat) => (List.range (edgeCount (reg s) (actProg s) p)).map
      (fun i => s.car.time + j * len + 8 + i * halfPeriod (reg s) (runFq s p))
    (∀ at_, at_ ≠ s.car.time → exec (.groupStart p g at_ q) s = .next s)
    ∧ ∃ t r, exec (.groupStart p g s.car.time q) s = .next t
      ∧ t = { s with car := { s.car with run := some (newRun s p g s.car.time q), pass := BitVec.ofNat 4 p.val } }
      ∧ runForward t = some r ∧ runDone r = true ∧ r.pass = p ∧ r.group = g ∧ r.noisy = 0 ∧ r.now.start = s.car.time + n * len
      ∧ r.done = (List.range n).map (fun j => (List.range (rxPins (reg s) (actProg s) p).length).map (fun c => stepComp t p g (j + 1) c q (edges j)))

/-- R85, R99, R343: a group that would end beyond the deadline, or a MUTUAL group without VHV, is STALE and counted in STALECNT. A LISTEN
pass listens for its interval after its reset, which reaches to the end of the check slot in a pass that starts with the beat (R82, R154);
where ADC2 or a listened amplifier is fenced it does not run, without a STALE mark (that this also holds beyond the deadline is the
model's choice, log 109). -/
def Obligations.GroupsPastTheDeadlineAreStale : Prop :=
  ∀ (s : State) (p : Fin 16) (g : Nat) (q : GroupInput), s.jtag.ir ≠ .extest → passRuns s p = true →
    (getPass s p).started = true → s.car.run = none → isNext s p g = true → s.car.passes.length = 16 →
    ((isListen (reg s) (actProg s) p = true → listenBlocked s p = false) →
      deadlineAt s < s.car.time + groupClocks (reg s) (actProg s) p (runFq s p) ∨ (isMutual (reg s) (actProg s) p = true ∧ s.pwr.vhvOk = false) →
      ∃ t, exec (.groupStart p g s.car.time q) s = .next t ∧ t.car.stalecnt = satInc s.car.stalecnt ∧ t.car.run = none
        ∧ (getPass t p).stale = putBit (getPass s p).stale g true ∧ (getPass t p).ended = putBit (getPass s p).ended g true
        ∧ (getPass t p).nodes = (getPass s p).nodes ∧ t.mem = s.mem ∧ t.regs = s.regs ∧ t.flt = s.flt)
    ∧ (isListen (reg s) (actProg s) p = true → listenBlocked s p = false →
        s.car.time + groupClocks (reg s) (actProg s) p (runFq s p) ≤ deadlineAt s →
        let t := (if s.car.time = 0 then 16 else s.car.time + 8) + listenClocks (reg s) (actProg s) p
        exec (.groupStart p g s.car.time q) s = .next { s with car := { s.car with
          listenOff := false, pass := BitVec.ofNat 4 p.val
          run := some { newRun s p 0 s.car.time q with done := [[]], steps := 1, now := { start := t } } } })
    ∧ (isListen (reg s) (actProg s) p = true → listenBlocked s p = true →
        ∃ t, exec (.groupStart p g s.car.time q) s = .next t ∧ t.car.listenOff = true ∧ t.car.run = none ∧ t.car.stalecnt = s.car.stalecnt
          ∧ (getPass t p).stale = (getPass s p).stale ∧ (getPass t p).ended = putBit (getPass s p).ended 0 true
          ∧ t.flt.logcount = (if s.car.listenOff then s.flt.logcount else s.flt.logcount + 1))

/-- R92, R93, R95: a step held by a quiet window. Where the window reopens in time and a segment is left, the step goes on in its next
segment at the earliest time that R91 allows; else it completes regardless and is counted as NOISY. Only the carousel changes, and what the
group has measured is kept.
R86, R87: at the frame deadline what runs stops, its NOISY steps until then counted; the TX pins of its step move to their rest levels with
edges of 20 ns, and every group of the frame that has not been decoded or marked becomes STALE; a run that is complete before D is decoded
as if nothing had come. -/
def Obligations.HeldStepsAndTheDeadline : Prop :=
  (
    ∀ (s : State) (run : Run), s.jtag.ir ≠ .extest → s.car.run = some run → run.now.hold = true → runDone run = false →
      let b := burstOf s run.pass
      (needsNoisy s b run.now = false →
        exec .quietHoldEnd s = .next { s with car := { s.car with run := some { run with now := { run.now with
            hold := false, seg := run.now.seg + 1, times := run.now.times ++ [quietAt s b run.now] } }, noisycnt := satAdd s.car.noisycnt 0 } }
        ∧ exec .noisyCompletion s = .next s)
      ∧ (needsNoisy s b run.now = true →
        exec .quietHoldEnd s = .next s
        ∧ (∃ t r, exec .noisyCompletion s = .next t ∧ t = { s with car := { s.car with run := t.car.run, noisycnt := t.car.noisycnt } }
          ∧ t.car.run = some { run with now := forceEdges b run.now, noisyStep := true }
          ∧ runForward t = some r ∧ run.done <+: r.done ∧ run.done.length < r.done.length ∧ r.noisy = run.noisy + 1)))
  ∧ (
    ∀ (s : State) (run : Run), s.jtag.ir ≠ .extest → s.car.run = some run → s.beat.running = true → s.car.passes.length = 16 →
      (∀ p, p ∈ framePasses s → groupsOf s p ≤ 18) →
      (runInTime s (runOn s run) = false →
        ∃ t, exec .deadlineReached s = .next t ∧ t.car.deadline = true ∧ t.car.run = none ∧ t.car.lastEnd = deadlineAt s
          ∧ (let r := runAt s (deadlineAt s) run
             t.car.noisycnt = satAdd s.car.noisycnt (r.noisy - run.noisy)
             ∧ t.car.shown = some { pass := r.pass, group := r.group, step := min r.steps (r.done.length + 1), ended := true
                                    rest := some (deadlineAt s + 4) })
          ∧ (∀ p, p ∈ framePasses s → passEnded t p = true)
          ∧ (∀ p, p ∈ framePasses s → ∀ g, g ∈ groupsLeft s p → bit (getPass t p).stale g = true)
          ∧ t.mem = s.mem ∧ t.regs = s.regs ∧ t.flt = s.flt ∧ t.beat = s.beat)
      ∧ (runInTime s (runOn s run) = true → exec .deadlineReached s = .next s))

/-- R44, R54, R55, R57: the charge of an edge that has arrived whole is held by the integrator's output and the bushels returned, no more
and no less; the bushel count stays within its 12 bits; inside the residue window the composite M is the held charge in 1/4096 bushels,
rounded down. u is the bushel, c the edge's charge.
R40, R42, R43, R51, R52: a fenced electrode floats whatever its role unless it is under its repair test, a fenced shield output too; an
electrode shows its idle role where no step gives it another; a driven shield output holds 0.9 V outside the self passes; each edge of a
burst reverses the level of the TX electrodes. R68: a sub-step of the integrity test drives every other pin of its block, with the rest of
the block at virtual ground in the neighbour test, and all other pins at GND. R388: without a supply every pin floats. -/
def Obligations.ChargeIsConservedAndPinsAreDriven : Prop :=
  (∀ (u c : Int) (recycle : Bool) (early len d : Nat) (x : Integ), 1 ≤ len → (if recycle then 3 else 0) + len ≤ d →
      let y := integEdge u c recycle early len d x
      y.out + u * y.b = x.out + u * x.b + c
      ∧ (-2048 ≤ x.b → x.b ≤ 2047 → -2048 ≤ y.b ∧ y.b ≤ 2047)
      ∧ (x.full = true → y.full = true) ∧ (x.stop = true → y.stop = true))
  ∧ (∀ (u : Int) (x : Integ), 0 < u → 0 ≤ x.out → x.out < u → x.full = false → x.stop = false →
      (residuePhase u x).sat = false
      ∧ (residuePhase u x).m * u ≤ 4096 * (x.out + u * x.b) ∧ 4096 * (x.out + u * x.b) < ((residuePhase u x).m + 1) * u)
  ∧ (∀ (u : Int) (x : Integ), 0 < u → x.out < 0 ∨ u ≤ x.out ∨ x.full = true ∨ x.stop = true → (residuePhase u x).sat = true)
  ∧ (∀ (s : State) (pin : Nat),
      (pinFenced s pin = true → (∀ x, subNow s = some x → x.pin ≠ some pin) → pinDrive s pin = .hiz)
      ∧ (s.pwr.powered = false → pinDrive s pin = .hiz)
      ∧ (∀ x b k, s.pwr.powered = true → subNow s = some x → x.el = some (b, k) → pinFenced s pin = false →
          (pin / 32 ≠ b → pinDrive s pin = .vss)
          ∧ (pin / 32 = b → pin % 2 = k % 2 → pinDrive s pin = .wave (subEdges s x % 2 == 1))
          ∧ (pin / 32 = b → pin % 2 ≠ k % 2 → pinDrive s pin = if 2 ≤ k then .amp else .vss))
      ∧ (s.pwr.powered = true → subNow s = none → pinFenced s pin = false → stepShown s = none →
          pinDrive s pin = (if rf (reg s) (0x200 + 2 * pin) 4 2 = 1 then .hiz else if rf (reg s) (0x200 + 2 * pin) 4 2 = 2 then .mid else .vss))
      ∧ (∀ x : StepShown, txLevel s { x with edge := x.edge + 1 } pin = (txLevel s x pin).map (fun b => !b)))
  ∧ (∀ (s : State) (k : Fin 4),
      (bit s.ana.shdFen k = true → shdTested s k = false → shdDrive s k = .hiz) ∧ (s.pwr.powered = false → shdDrive s k = .hiz)
      ∧ (s.pwr.powered = true → bit s.ana.shdFen k = false → rbit (reg s) 0x100 (4 + k) = true →
          (stepShown s = none ∨ ∃ x, stepShown s = some x ∧ (isSelf (reg s) (actProg s) x.pass = false ∨ x.ended = true)) → shdDrive s k = .mid))

/-- R79, R80: the code recovers every coupling. With the steps of a group of size n = 2^k (k = 3 to 6) measuring the coded charge of the
couplings v of its slots 1 to n - 1, the decoded value of slot c is v c, for all integers. -/
def Obligations.CodedDriveRecoversEveryCoupling : Prop :=
  ∀ (k : Nat) (v : Nat → Int) (c : Nat), 3 ≤ k → k ≤ 6 → 1 ≤ c → c < 2 ^ k →
    let m := fun (j : Nat) => ((List.range (2 ^ k - 1)).map (fun i => i + 1)).foldl (fun a d => a + codeSign j d * v d) 0
    decodeN (k - 1) ((negSteps (2 ^ k) c).foldl (fun a j => a + m j) 0) = v c

/-- R80, R128, R130, R371: a complete code group. Where every row passes its checks, the rows' nodes take the decoded values and the group
has ended; a NOISY step marks the group, and an error in the zone unit's sum marks it STALE for the zones that use it, which are then held
(R189). Where a row fails, the group keeps its old values, is STALE, and the failed rows are counted. The next group starts at its end
(R83). -/
def Obligations.GroupDecodeChecksEveryRow : Prop :=
  ∀ (s : State) (p : Fin 16) (g : Nat) (errs : List PathError) (zerr : List Int) (run : Run), s.jtag.ir ≠ .extest →
    isMutual (reg s) (actProg s) p = true → completeRun s p g = some run → s.car.passes.length = 16 →
    let k := codeLog (reg s) (actProg s) p - 1
    let n := codeSize (reg s) (actProg s) p
    let cols := colCount (reg s) (actProg s) p
    let rows := rowsOfGroup (reg s) (actProg s) p g
    let good := fun (t : Nat) => slotGood run n k cols (slotOfRow (reg s) (actProg s) p t) errs
    (rows.all good = true →
      ∃ t, exec (.groupDecode p g errs zerr) s = .next t ∧ t.car.run = none ∧ (getPass t p).ended = putBit (getPass s p).ended g true
        ∧ (∀ r c, r ∈ rows → c < cols → nodeOf (getPass t p) (r * cols + c) = slotNode s run n k r (slotOfRow (reg s) (actProg s) p r) c errs)
        ∧ (∀ r c, r ∉ rows → r < rowCount (reg s) (actProg s) p → c < cols → nodeOf (getPass t p) (r * cols + c) = nodeOf (getPass s p) (r * cols + c))
        ∧ (getPass t p).stale = (getPass s p).stale ∧ t.car.chkcnt = satAdd s.car.chkcnt (zoneErrors zerr)
        ∧ (getPass t p).zstale = (if 0 < zoneErrors zerr then putBit (getPass s p).zstale g true else (getPass s p).zstale)
        ∧ (0 < zoneErrors zerr → g < 18 → ∀ z i, zonePass (reg s) z = p → zoneKind (reg s) z ≠ 2 → i ∈ zoneNodes t z →
            groupOfRow (reg s) (actProg s) p (i / max cols 1) = g → zoneHeld t z = true)
        ∧ t.car.time = run.now.start ∧ t.car.lastEnd = run.now.start
        ∧ (0 < run.noisy → bit (getPass t p).noisy g = decide (g < 18)) ∧ t.mem = s.mem ∧ t.regs = s.regs ∧ t.flt = s.flt)
    ∧ (rows.all good = false →
      ∃ t, exec (.groupDecode p g errs zerr) s = .next t ∧ t.car.run = none ∧ (getPass t p).nodes = (getPass s p).nodes
        ∧ (getPass t p).stale = putBit (getPass s p).stale g true ∧ (getPass t p).ended = putBit (getPass s p).ended g true
        ∧ t.car.chkcnt = satAdd s.car.chkcnt ((rows.filter (fun t => !(good t))).length) ∧ t.car.time = run.now.start ∧ t.regs = s.regs)

/-- R81, R82, R97, R99: the end of a self step gives each node its composite; the end of a LISTEN pass moves each frequency's smoothed level by
an eighth of its difference from the largest level of the listened amplifiers' samples; where an amplifier or ADC2 was fenced meanwhile,
the levels stay. A level is the Goertzel power in 0.25 dB, rounded down or up, which is free (log 15): ten to its value is at most the 40th
power of the ratio, and ten times that is more. -/
def Obligations.SelfStepsAndListeningComplete : Prop :=
  (∀ (s : State) (p : Fin 16) (zerr : Int) (run : Run), s.jtag.ir ≠ .extest → isSelf (reg s) (actProg s) p = true →
    completeRun s p 0 = some run → s.car.passes.length = 16 →
    ∃ t, exec (.selfStepDone p zerr) s = .next t ∧ t.car.run = none ∧ (getPass t p).ended = putBit (getPass s p).ended 0 true
      ∧ (∀ i, i < colCount (reg s) (actProg s) p →
          nodeOf (getPass t p) i = ⟨(compAt run 1 i).m, (compAt run 1 i).sat, nodeFenced s (reg s) (actProg s) p 0 i⟩)
      ∧ t.car.time = run.now.start ∧ t.mem = s.mem ∧ t.regs = s.regs ∧ t.flt = s.flt)
  ∧ (∀ (s : State) (p : Fin 16) (charges : List (List Int)) (run : Run), s.jtag.ir ≠ .extest → isListen (reg s) (actProg s) p = true →
    completeRun s p 0 = some run → s.car.passes.length = 16 →
    (listenBlocked s p = false →
      ∃ t, exec (.listenEnd p charges) s = .next t ∧ t.car.run = none ∧ t.car.listened = true
        ∧ (∀ k : Fin 8, ∃ l, t.car.noise.getD k none = some (smooth (s.car.noise.getD k none) l) ∧ -32767 ≤ l ∧ l ≤ 32767
            ∧ (∀ r, r < colCount (reg s) (actProg s) p → limit (-32767) 32767 (toneLevel (bushelOf s run.pass r run.input)
                (halfPeriod (reg s) k) (listenColumn s run r (charges.getD r []))) ≤ l))
        ∧ t.mem = s.mem ∧ t.regs = s.regs ∧ t.flt = s.flt)
    ∧ (listenBlocked s p = true →
      ∃ t, exec (.listenEnd p charges) s = .next t ∧ t.car.run = none ∧ t.car.listened = s.car.listened ∧ t.car.noise = s.car.noise
        ∧ t.car.listenOff = true ∧ t.mem = s.mem ∧ t.regs = s.regs))
  ∧ (∀ a b : Nat, 0 < b → b ≤ a → a ^ 40 < 10 ^ 16384 * b ^ 40 →
      ∃ n : Nat, level40 a b = (n : Int) ∧ 10 ^ n * b ^ 40 ≤ a ^ 40 ∧ a ^ 40 < 10 ^ (n + 1) * b ^ 40)

/-- R89, R90, R91: a SYN source. The first active edge since it was enabled begins an interval, and one longer than two periods, which makes the
source invalid, is the first of the three that make it valid again (the model's readings, log 14). One of 200 to 16,777,215 SENSE clocks
counts, and the third makes the source valid; one outside makes it invalid; its loss of validity is logged. An edge of the other direction
does nothing, nor does any edge in the hold-over beats (R24) or under EXTEST (R401). The edges of a step in progress that are still to come are
placed from the present time on, as its edges until then have come (R94, R95).
R98: at a frame boundary after a LISTEN pass, a pass hops to its candidate frequency once the count is reached and the dwell has passed; the
hop is counted. At other times it does not. -/
def Obligations.SynSourcesAndFrequencyHops : Prop :=
  (
    (∀ (s : State) (k : Fin 4) (a b : Bool), senseRuns s = false ∨ scanEnded s = true ∨ s.jtag.ir = .extest ∨ rbit (reg s) (0x510 + k) 0 = false →
      exec (.synEdge k a b) s = .next s)
    ∧ (∀ (s : State) (k : Fin 4) (falling : Bool), senseRuns s = true → scanEnded s = false → s.jtag.ir ≠ .extest →
      rbit (reg s) (0x510 + k) 0 = true → s.car.syn.length = 4 →
      exec (.synEdge k falling falling) s = .next s
      ∧ (rbit (reg s) (0x510 + k) 1 ≠ falling → exec (.synEdge k falling (!falling)) s = .next s)
      ∧ (rbit (reg s) (0x510 + k) 1 = falling → (getSyn s k).seen = false →
        ∃ t, exec (.synEdge k falling (!falling)) s = .next t
          ∧ t = { s with car := { s.car with syn := t.car.syn, run := t.car.run, noisycnt := t.car.noisycnt } }
          ∧ (∀ r, t.car.run = some r → r.now.after = s.beat.clk) ∧ (t.car.run.isSome ↔ s.car.run.isSome)
          ∧ (∀ run, s.car.run = some run → t.car.noisycnt = satAdd s.car.noisycnt ((runAt s s.beat.clk run).noisy - run.noisy))
          ∧ getSyn t k = { getSyn s k with seen := true, last := (s.beat.clk : Int) } ∧ (∀ j : Fin 4, j ≠ k → getSyn t j = getSyn s j))
      ∧ (rbit (reg s) (0x510 + k) 1 = falling → (getSyn s k).seen = true →
        ∃ t, exec (.synEdge k falling (!falling)) s = .next t
          ∧ t = { s with car := { s.car with syn := t.car.syn, run := t.car.run, noisycnt := t.car.noisycnt }, flt := t.flt }
          ∧ (getSyn t k).last = (s.beat.clk : Int) ∧ (∀ j : Fin 4, j ≠ k → getSyn t j = getSyn s j)
          ∧ (∀ r, t.car.run = some r → r.now.after = s.beat.clk)
          ∧ (let n := synSince s k
             let long := (getSyn s k).valid && decide (2 * (getSyn s k).period < n)
             (200 ≤ n → n ≤ 16777215 → long = false →
               (getSyn t k).period = n ∧ (getSyn t k).valid = ((getSyn s k).valid || decide (3 ≤ (getSyn s k).count + 1)) ∧ t.flt = s.flt)
             ∧ (200 ≤ n → n ≤ 16777215 → long = true →
               (getSyn t k).period = n ∧ (getSyn t k).valid = false ∧ (getSyn t k).count = 1 ∧ t.flt.logcount = s.flt.logcount + 1)
             ∧ (n < 200 ∨ 16777215 < n → (getSyn t k).valid = false ∧ (getSyn t k).count = 0
               ∧ t.flt.logcount = (if (getSyn s k).valid then s.flt.logcount + 1 else s.flt.logcount)))))
    ∧ (∀ (s : State) (k : Fin 4), s.car.syn.length = 4 →
      (senseRuns s = true → scanEnded s = false → s.jtag.ir ≠ .extest → (getSyn s k).valid = true → 2 * (getSyn s k).period < synSince s k →
        ∃ t, exec (.synTimeout k) s = .next t
          ∧ t = { s with car := { s.car with syn := t.car.syn, run := t.car.run, noisycnt := t.car.noisycnt }, flt := t.flt }
          ∧ (getSyn t k).valid = false ∧ t.flt.logcount = s.flt.logcount + 1 ∧ (∀ r, t.car.run = some r → r.now.after = s.beat.clk))
      ∧ (synSince s k ≤ 2 * (getSyn s k).period ∨ senseRuns s = false ∨ scanEnded s = true ∨ s.jtag.ir = .extest →
        exec (.synTimeout k) s = .next s)))
  ∧ (
    ∀ (s : State) (p : Fin 16) (k : Nat), s.jtag.ir ≠ .extest → s.car.passes.length = 16 →
      (atBoundary s = true → s.car.heard = true → 2 ≤ (fqSet s p).length → (getPass s p).hopCand = some k →
        (rf (reg s) 0x502 6 4 + 1 ≤ (getPass s p).hopCount →
          (∀ n, (getPass s p).sinceHop = some n → 4 * rf (reg s) 0x502 10 6 ≤ n) →
          ∃ t, exec (.frequencyHop p) s = .next t ∧ t = { s with car := { s.car with passes := t.car.passes, hopcnt := satInc s.car.hopcnt } }
            ∧ (getPass t p).fq = BitVec.ofNat 3 k ∧ (getPass t p).hopCand = none ∧ (getPass t p).sinceHop = some 0
            ∧ (∀ j : Fin 16, j ≠ p → getPass t j = getPass s j))
        ∧ ((getPass s p).hopCount < rf (reg s) 0x502 6 4 + 1 → exec (.frequencyHop p) s = .next s))
      ∧ (atBoundary s = false ∨ s.car.heard = false → exec (.frequencyHop p) s = .next s))

/-! ### Shields, clamps, calibration, integrity -/

/-- R51, R52, R67, R160, R267, R368: an overload of a driver that follows the self waveform sets its OVL bit, its time is noted, and every result
of the self step is SAT; a driver under its repair test fails it. Without a self step, or with a driver that is not driven, there is none.
A clamp event at least 1 us after the last one sets its flag, advances its counter and raises CLAMP; it marks SAT the results of its receive
group in the step that it finds in its burst, settle or residue, or CLIP the conversions of its auxiliary channel. It began 20 ns, 4 clocks,
before its detection, so that it marks what ended in those too (the model's reading, log 10). The carousel stands still under EXTEST (R401):
its time is carClk. -/
def Obligations.OverloadsAndClampsMarkResults : Prop :=
  (∀ (s : State) (k : Fin 4) (ns : Nat),
    let u : State := { s with
      ana := { s.ana with
        shdOvl := putBit s.ana.shdOvl k true
        shdTimes := upd s.ana.shdTimes k (fun l => l.filter (fun x => decide (s.beat.now ≤ x.1 + 20000000)) ++ [(s.beat.now, ns)]) }
      flt := { s.flt with good := s.flt.good && !(shdTested s k) } }
    (s.car.run = none → exec (.shdOverload ⟨k, ns⟩) s = .next s)
    ∧ (shdTested s k = false → rbit (reg s) 0x100 (4 + k) = false ∨ bit s.ana.shdFen k = true → exec (.shdOverload ⟨k, ns⟩) s = .next s)
    ∧ (∀ run, s.car.run = some run →
        let r := runAt u (carClk u) run
        (isSelf (reg s) (actProg s) run.pass = false → exec (.shdOverload ⟨k, ns⟩) s = .next s)
        ∧ (isSelf (reg s) (actProg s) run.pass = true → shdTested s k = true ∨ (rbit (reg s) 0x100 (4 + k) = true ∧ bit s.ana.shdFen k = false) →
          (runDone r = false →
            exec (.shdOverload ⟨k, ns⟩) s = .next { (putRun u r) with car := { (putRun u r).car with run := some { r with sat := 0xFF } } })
          ∧ (runDone r = true →
            exec (.shdOverload ⟨k, ns⟩) s = .next { (putRun u r) with car := { (putRun u r).car with run := some (satLast (putRun u r) r 0xFF) } }))))
  ∧ (∀ (s : State) (g : Fin 16) (ns : Nat), senseRuns s = true →
    let u : State := if ns < 1000 then s else { s with
      ana := { s.ana with clampFlg := putBit s.ana.clampFlg g true, clampCnt := upd s.ana.clampCnt g satInc }
      pwr := { s.pwr with irqstat := putBit s.pwr.irqstat 14 true } }
    (g.val < 8 → s.car.run = none → exec (.clampEvent g ns) s = .next u)
    ∧ (g.val < 8 → ∀ run, s.car.run = some run →
        let v := putRun u (runAt u (carClk u) run)
        let r := runAt u (carClk u) run
        ∃ t r', exec (.clampEvent g ns) s = .next t ∧ t = { v with car := { v.car with run := some r' } }
          ∧ r'.pass = r.pass ∧ r'.done.length = r.done.length ∧ r'.now = r.now
          ∧ (satPhase v r = true → r'.sat = r.sat ||| BitVec.ofNat 8 (2 ^ g.val)) ∧ (satPhase v r = false → r'.sat = r.sat)
          ∧ (r.now.start + 4 ≤ carClk s → r'.done = r.done))
    ∧ (8 ≤ g.val → exec (.clampEvent g ns) s = .next { u with aux := { s.aux with
        clampAt := upd s.aux.clampAt (g.val - 8) (fun _ => some s.beat.now)
        flight := s.aux.flight.map (fun c => if c.ch = g.val - 8 ∧ s.beat.now < c.slot + 12 then { c with clip := true } else c) } }))

/-- R61, R65, R68, R376: when a calibration step or an integrity step becomes due, by its interval or by CALCFG.REQ; a calibration step
that has waited too long forces a gap in the next frame, with its entry; a late integrity test is logged once.
R60, R62, R63, R65: a calibration step judges the amplifiers of one index in every receive group that is not fenced: a good reading
gives a trim to take force later, at most 4 away from the present one unless it is the first; a bad one counts a failure, and the second
in a row makes the amplifier due for fencing; the step is counted with its beat. A reference fault changes no amplifier and is logged. The
step runs at start-up, in a forced gap, or in a gap of 19.84 us once the passes have ended; one that quiet windows would stretch beyond its
gap is abandoned; without a source that imposes one it takes 19.84 us. Every live source binds its edges (the model's choice, log 108), and a
step that is due runs whatever CALCFG.EN and ELCHKCFG.EN then show (log 11).
R62, R64: trims that wait take force at a frame boundary where CALCFG.APPLY is 0 or start-up calibration has completed; else they wait for a
fence. -/
def Obligations.CalibrationBecomesDueAndMovesTrims : Prop :=
  (∀ s : State,
    (rbit (reg s) 0x102 0 = true → 2 ^ (min (rf (reg s) 0x102 2 4) 8 + 8) ≤ s.ana.calFrames →
      exec .calDue s = .next { s with ana := { s.ana with calDue := true } })
    ∧ (s.ana.calFrames < 2 ^ (min (rf (reg s) 0x102 2 4) 8 + 8) → exec .calDue s = .next s)
    ∧ (∀ w : W16, spaceOpen s = true →
        (bit w 8 = true → exec (.calibrationRequest w) s = .next { s with
          regs := { s.regs with staged := sset regReset s.regs.staged 0x102 (w &&& 0x003F) }, ana := { s.ana with calDue := true } })
        ∧ (bit w 8 = false → exec (.calibrationRequest w) s = .next { s with
          regs := { s.regs with staged := sset regReset s.regs.staged 0x102 (w &&& 0x003F) } }))
    ∧ (s.ana.calDue = true → gapWork s = true →
        exec .calForce s = .next (logEv { s with ana := { s.ana with calForced := true } } 0x03 0 0))
    ∧ (rbit (reg s) 0x104 0 = true → 2 ^ (rf (reg s) 0x104 1 3 + 4) ≤ s.ana.chkFrames →
        exec .elchkDue s = .next { s with ana := { s.ana with chkDue := true, chkFrames := 0 } })
    ∧ (s.ana.chkFrames < 2 ^ (rf (reg s) 0x104 1 3 + 4) → exec .elchkDue s = .next s)
    ∧ (s.ana.chkDue = true → s.ana.chkLate = false →
        exec .elchklate s = .next (logEv { s with ana := { s.ana with chkLate := true } } 0x1E 0 0))
    ∧ (s.ana.chkLate = true → exec .elchklate s = .next s))
  ∧ (
    ∀ (s : State) (m0 m1 : List Int) (sat : List (Bool × Bool)), s.jtag.ir ≠ .extest → gapWork s = true → s.ana.amps.length = 128 →
      let i := s.ana.calCnt.toNat % 16
      let judged := (List.range 8).filter (fun g => !(bit s.ana.ampFen (16 * g + i)) && !(bit s.aux.adcFen (g / 2)))
      let reading := fun (g : Nat) => (⟨m0.getD g 0, m1.getD g 0, (sat.getD g (false, false)).1, (sat.getD g (false, false)).2⟩ : CalReading)
      let failed := judged.filter (fun g => (calAssess (getAmp s (16 * g + i)).trim (reading g)).isNone)
      let fault := 6 ≤ failed.length ∨ (judged.length < 8 ∧ 2 ≤ failed.length ∧ 3 * judged.length ≤ 4 * failed.length)
      let forced := s.ana.calDue = true ∧ inForcedGap s = true
      let gap := calGapFree s = true ∧ inForcedGap s = false
      (s.ana.startCal = 0 → (forced ∧ 4000 < calEndAt s 0) ∨ (gap ∧ deadlineAt s < calEndAt s s.car.lastEnd)
          ∨ (calGapFree s = false ∧ inForcedGap s = false) →
        exec (.calStep m0 m1 sat) s = .next s)
      ∧ (0 < s.ana.startCal ∨ (forced ∧ calEndAt s 0 ≤ 4000) ∨ (gap ∧ calEndAt s s.car.lastEnd ≤ deadlineAt s) →
        ∃ t, exec (.calStep m0 m1 sat) s = .next t
          ∧ t = { s with ana := t.ana, flt := t.flt, car := { s.car with lastEnd := t.car.lastEnd } }
          ∧ t.ana.subs.length = s.ana.subs.length + 16 ∧ t.ana.calCnt = s.ana.calCnt + 1 ∧ t.ana.calBeat = s.beat.no ∧ t.ana.calDue = false ∧ t.ana.startCal = s.ana.startCal - 1
          ∧ (fault → t.ana.amps = s.ana.amps ∧ t.flt.logcount = s.flt.logcount + 1)
          ∧ (¬ fault → t.flt = s.flt
            ∧ (∀ g, g ∈ judged → let a := getAmp s (16 * g + i)
                (∀ v, calAssess a.trim (reading g) = some v → getAmp t (16 * g + i) = { a with
                  fails := 0, done := true, wait := some (if a.done then a.trim + limit (-4) 4 (v - a.trim) else v) })
                ∧ (calAssess a.trim (reading g) = none → getAmp t (16 * g + i) = { a with
                  fails := a.fails + 1, due := a.due || decide (2 ≤ a.fails + 1) }))
            ∧ (∀ n, (∀ g, g ∈ judged → n ≠ 16 * g + i) → getAmp t n = getAmp s n))))
  ∧ (∀ (s : State) (t : Nat), (∀ k, k < 4 → synLive s k = false) → calEndAt s t = t + 3968)
  ∧ (
    ∀ s : State,
      (atBoundary s = true → rbit (reg s) 0x102 1 = false ∨ s.ana.startTrim = true →
        ∃ t, exec .trimApply s = .next t ∧ t = { s with ana := { s.ana with startTrim := false, amps := t.ana.amps } }
          ∧ t.ana.amps.length = s.ana.amps.length
          ∧ (∀ n v, (getAmp s n).wait = some v → getAmp t n = { getAmp s n with trim := v, wait := none })
          ∧ (∀ n, (getAmp s n).wait = none → getAmp t n = getAmp s n))
      ∧ (atBoundary s = false ∨ (rbit (reg s) 0x102 1 = true ∧ s.ana.startTrim = false) → exec .trimApply s = .next s))

/-- R68, R69, R156, R369: an integrity step, in a gap of at least 8.96 us once the passes have ended and no calibration step goes first, tests
the next block that holds a used pin, in four sub-steps, whatever ELCHKCFG.EN shows once it is due (the model's choice, log 11). A pin whose
reading is saturated or above CMAX is SHORT, else below CMIN OPEN, else coupled above CMUT a SHORTPIN, else good (an order that the model
chose, log 12); the same fault twice in a row makes it due for fencing, and renews the fault of one that is fenced. Where the block's
converter is fenced, no pin is judged. -/
def Obligations.IntegrityStepJudgesPins : Prop :=
  (∀ (s : State) (caps : List (Nat × Bool)) (coups : List Nat) (b : Nat), s.jtag.ir ≠ .extest → gapWork s = true → s.ana.chkDue = true →
    (frameRan s = true → 1792 ≤ gapClocks s → inForcedGap s = false → calGapFree s = false → elNextBlock s = some b → s.ana.verdict.length = 256 →
      s.ana.earlier.length = 256 →
      ∃ t, exec (.elchkStep caps coups) s = .next t
        ∧ t = { s with ana := t.ana, car := { s.car with lastEnd := s.car.lastEnd + 1792 }
                       flt := { s.flt with stale := t.flt.stale, pending := t.flt.pending } }
        ∧ t.ana.subs = s.ana.subs ++ elSubs s.car.lastEnd b none
        ∧ (bit s.aux.adcFen (b / 2) = true → t.ana.verdict = s.ana.verdict ∧ t.ana.earlier = s.ana.earlier ∧ t.ana.elDue = s.ana.elDue ∧ t.flt = s.flt)
        ∧ t.ana.chkBlk = b ∧ t.ana.chkDue = false ∧ t.ana.chkLate = false ∧ t.ana.elFen = s.ana.elFen
        ∧ (∀ (j : Fin 32) (c : Nat × Bool) (n : Nat), elTested s (32 * b + j) = true → bit s.aux.adcFen (b / 2) = false →
            caps[j.val]? = some c → coups[j.val]? = some n →
            let pin := 32 * b + j
            let v := elVerdict s pin ⟨c.1, c.2, n⟩
            t.ana.earlier.getD pin 0 = v
            ∧ (v ≠ 0 ∨ bit s.ana.elFen pin = false → t.ana.verdict.getD pin 0 = v)
            ∧ (v ≠ 0 → s.ana.earlier.getD pin 0 = v → bit s.ana.elFen pin = false → bit t.ana.elDue pin = true)
            ∧ (v ≠ 0 → s.ana.earlier.getD pin 0 = v → bit s.ana.elFen pin = true → ∀ x, x ∈ t.flt.pending → x.1 ≠ ⟨3, BitVec.ofNat 8 pin⟩))
        ∧ (∀ pin, pin / 32 ≠ b → t.ana.verdict.getD pin 0 = s.ana.verdict.getD pin 0 ∧ bit t.ana.elDue pin = bit s.ana.elDue pin))
    ∧ (frameRan s = false ∨ gapClocks s < 1792 ∨ calGapFree s = true → exec (.elchkStep caps coups) s = .next s))
  ∧ (∀ (s : State) (pin : Nat) (m : ElMeas),
      let cmin := fld (reg s (0x201 + 2 * pin)) 0 8
      let cmax := fld (reg s (0x201 + 2 * pin)) 8 8
      let cmut := rf (reg s) 0x104 8 8
      (m.sat = true ∨ (cmax ≠ 0 ∧ 2000 * cmax < m.cap) → elVerdict s pin m = 2)
      ∧ (m.sat = false → cmax = 0 ∨ m.cap ≤ 2000 * cmax → m.cap < 500 * cmin → elVerdict s pin m = 1)
      ∧ (m.sat = false → cmax = 0 ∨ m.cap ≤ 2000 * cmax → 500 * cmin ≤ m.cap → cmut ≠ 0 → 500 * cmut < m.coup → elVerdict s pin m = 3)
      ∧ (m.sat = false → cmax = 0 ∨ m.cap ≤ 2000 * cmax → 500 * cmin ≤ m.cap → cmut = 0 ∨ m.coup ≤ 500 * cmut → elVerdict s pin m = 0))

/-- R63, R69, R52, R130, R366, R380: fencing a unit that is due sets its fence bit, raises FENCE, and writes one entry with its kind, unit and
detail; queues and registers stay. Amplifiers and pins are fenced at a frame boundary only. A unit that is not due stays as it is. A shield
driver is due once its limit has been active for 1 ms within 100 ms. -/
def Obligations.FencingRaisesAndLogs : Prop :=
  let entry := fun (s t : State) (kind : Byte) (unit : Nat) (detail : W16) =>
    t.flt.logcount = s.flt.logcount + 1
    ∧ (s.flt.log.length = 64 → (t.flt.log.getD (s.flt.logcount.toNat % 64) none).map (fun e => (e.kind, e.unit, e.detail)) =
        some (kind, BitVec.ofNat 8 unit, detail))
  (∀ (s : State) (a : Fin 128),
    (atBoundary s = true → (getAmp s a).due = true → bit s.ana.ampFen a = false →
      ∃ t, exec (.ampFence a) s = .next t ∧ t = { s with ana := t.ana, flt := t.flt, pwr := t.pwr, car := t.car, zon := t.zon }
        ∧ t.ana.ampFen = putBit s.ana.ampFen a true ∧ t.pwr = { s.pwr with irqstat := putBit s.pwr.irqstat 0 true }
        ∧ entry s t 0x05 a 0 ∧ (s.ana.amps.length = 128 → (getAmp t a).due = false))
    ∧ (atBoundary s = false ∨ (getAmp s a).due = false → exec (.ampFence a) s = .next s))
  ∧ (∀ (s : State) (e : Fin 256),
    (atBoundary s = true → bit s.ana.elDue e = true → bit s.ana.elFen e = false →
      ∃ t, exec (.elecFence e) s = .next t ∧ t = { s with ana := t.ana, flt := t.flt, pwr := t.pwr, car := t.car, zon := t.zon }
        ∧ t.ana = { s.ana with elFen := putBit s.ana.elFen e true, elDue := putBit s.ana.elDue e false }
        ∧ t.pwr = { s.pwr with irqstat := putBit s.pwr.irqstat 0 true } ∧ entry s t 0x06 e (BitVec.ofNat 16 (s.ana.verdict.getD e 0).toNat))
    ∧ (atBoundary s = false ∨ bit s.ana.elDue e = false → exec (.elecFence e) s = .next s))
  ∧ (∀ (s : State) (k : Fin 4), bit s.ana.shdFen k = false →
    let active := ((s.ana.shdTimes.getD k []).filter (fun x => decide (s.beat.now ≤ x.1 + 20000000))).foldl (fun a x => a + x.2) 0
    (1000000 ≤ active →
      ∃ t, exec (.shdFence k) s = .next t ∧ t = { s with
          ana := { s.ana with shdFen := putBit s.ana.shdFen k true }, pwr := { s.pwr with irqstat := putBit s.pwr.irqstat 0 true }, flt := t.flt }
        ∧ entry s t 0x07 k 0)
    ∧ (active < 1000000 → exec (.shdFence k) s = .next s))
  ∧ (∀ (s : State) (p : Fin 16), s.car.passes.length = 16 →
    (16 ≤ (getPass s p).failFrames → (getPass s p).pipeFen = false →
      ∃ t, exec (.pipeFence p) s = .next t ∧ getPass t p = { getPass s p with pipeFen := true, pipe := none, saved := [] }
        ∧ bit t.pwr.irqstat 0 = true ∧ entry s t 0x0B p 1 ∧ t.regs = s.regs ∧ t.rq = s.rq ∧ t.bq = s.bq ∧ t.cpu = s.cpu
        ∧ (s.beat.running = false → t = { s with
            car := t.car, flt := t.flt, mem := t.mem, pwr := { s.pwr with irqstat := putBit s.pwr.irqstat 0 true } }))
    ∧ ((getPass s p).failFrames < 16 → exec (.pipeFence p) s = .next s))

/-! ### The frame pipeline -/

/-- R108, R110, R115, R116, R129: a decoded row whose check agrees enters the pipeline: its raw words and its delta words stand in the pass's
area, in the first frame after a reseat the baselines take N x 256 before, and no byte of memory outside Granary changes. -/
def Obligations.PipelineRowWritesItsWords : Prop :=
  ∀ (s : State) (p : Fin 16) (t k : Nat) (err : Int), pipeWorks s p = true → rowWaits s p t = some k → s.car.passes.length = 16 →
    t < rowCount (reg s) (actProg s) p → (∀ f, (getPass s p).pipe = some f → f.late = false) → s.mem.bad = [] → s.mem.soft = [] → s.stored = true →
    rowAgrees s p t k err = true →
    ∃ s', exec (.pipelineRow p t err) s = .next s' ∧ s' = { s with car := s'.car, mem := s'.mem }
      ∧ t ∈ (getPass s' p).rows ∧ rowWaits s' p t = none
      ∧ (∀ c, c < colCount (reg s) (actProg s) p →
          let i := t * colCount (reg s) (actProg s) p + c
          rawWord s' p i = rawOf (nodeOf (getPass s p) i)
          ∧ ((getPass s p).seat = 32 → -8388608 ≤ (nodeOf (getPass s p) i).n → (nodeOf (getPass s p) i).n ≤ 8388607 →
              baseWord s' p i = 256 * (nodeOf (getPass s p) i).n)
          ∧ deltaWord s' p (imgOf s.beat.frameSeq) i = deltaForm (reg s) (actProg s) p (nodeOf (getPass s p) i) ((rowBases s p t).getD c 0))
      ∧ (∀ a, a < granBase → rd8 s' a = rd8 s a)

/-- R103, R107, R110, R131, R245: when every row of a pass has entered, the pass finishes: its header carries the frame's beat number, its
done event is set, its frame of a reseat is counted, BVALID is set by the last of them, and its image may be streamed. Where the check of
its rows before stages 6 and 7 (R372) fails in the sixteenth failing frame in a row, its pipeline is fenced instead (R130). A pass that
cannot finish is left alone. -/
def Obligations.FinishedPassWritesItsHeader : Prop :=
  ∀ (s : State) (p : Fin 16), s.stored = true → s.car.passes.length = 16 → s.mem.bad = [] →
    (canFinish s p = true →
      ∃ t, exec (.passDone p) s = .next t ∧ t.regs = s.regs ∧ t.ana = s.ana
        ∧ ((getPass t p).pipeFen = true → 15 ≤ (getPass s p).failFrames ∧ t.cpu = s.cpu ∧ bit t.pwr.irqstat 0 = true)
        ∧ ((getPass t p).pipeFen = false → bit t.cpu.evtpass p = true ∧ rd32 t (passBase s p) = (finishing s p).beat
          ∧ (getPass t p).pipe = none ∧ (getPass t p).saved = [] ∧ (getPass t p).seat = (getPass s p).seat - 1
          ∧ (getPass t p).retrack = (getPass s p).retrack.map (fun n => n - 1)
          ∧ (getPass t p).bvalid = ((getPass s p).bvalid || (getPass s p).seat == 1) ∧ (getPass t p).image = some (finishing s p).seq
          ∧ t.beat = s.beat))
    ∧ (canFinish s p = false → exec (.passDone p) s = .next s)

/-- R110, R113, R114, R126: marks that follow from what a pass has counted, each at its condition: a key current once it has held, without a
current one or as a challenger; BVALID after the frames of a reseat, the end of a retrack, a baseline reset by NEGTH or by FRZMAX. -/
def Obligations.PassMarksFollowTheirCounts : Prop :=
  (∀ (s : State) (p : Fin 16) (grp : Nat) (i : Nat), s.car.passes.length = 16 → grp < (getPass s p).keys.length →
    let k := (getPass s p).keys.getD grp {}
    let held := rf (reg s) (pipeKey (actProg s) p 11) 6 4 + 1
    ((k.cur = none ∧ k.top = some i ∧ held ≤ k.count) ∨ (k.cur.isSome = true ∧ ∃ n, k.quals = [(i, n)] ∧ held ≤ n) →
      ∃ t, exec (.keySelect p grp) s = .next t ∧ t = { s with car := { s.car with passes := t.car.passes } }
        ∧ (getPass t p).keys.getD grp {} = { k with cur := some i, quals := [] }
        ∧ (∀ j, j ≠ grp → (getPass t p).keys.getD j {} = (getPass s p).keys.getD j {}) ∧ (∀ q : Fin 16, q ≠ p → getPass t q = getPass s q))
    ∧ ((k.cur = none ∧ k.count < held) ∨ (k.cur.isSome = true ∧ ∀ e, e ∈ k.quals → e.2 < held) → exec (.keySelect p grp) s = .next s))
  ∧ (∀ (s : State) (p : Fin 16), s.car.passes.length = 16 →
    (∃ t, exec (.baselineValid p) s = .next t ∧ t = { s with car := { s.car with passes := t.car.passes } }
      ∧ getPass t p = { getPass s p with bvalid := (getPass s p).bvalid || ((getPass s p).seen && (getPass s p).seat == 0) }
      ∧ (∀ q : Fin 16, q ≠ p → getPass t q = getPass s q))
    ∧ (∃ t, exec (.retrackEnd p) s = .next t ∧ t = { s with car := { s.car with passes := t.car.passes } }
      ∧ getPass t p = { getPass s p with retrack := if (getPass s p).retrack = some 0 then none else (getPass s p).retrack }
      ∧ (∀ q : Fin 16, q ≠ p → getPass t q = getPass s q)))
  ∧ (∀ (s : State) (p : Fin 16) (i n : Nat), pipeWorks s p = true → s.stored = true → s.car.passes.length = 16 →
    rf (reg s) (pipeKey (actProg s) p 3) 0 8 ≠ 0 → n = max 1 (rf (reg s) (pipeKey (actProg s) p 3) 8 8) →
    (n ≤ (getPass s p).negative.getD i 0 →
      ∃ t, exec (.negReseat p i) s = .next t ∧ t = { s with car := t.car, mem := t.mem } ∧ t.car.negcnt = satInc s.car.negcnt
        ∧ baseWord t p i = 256 * (rawNode (rawWord s p i)).n ∧ (getPass t p).negative.getD i 0 = 0)
    ∧ ((getPass s p).negative.getD i 0 < n → exec (.negReseat p i) s = .next s))
  ∧ (∀ (s : State) (p : Fin 16) (i : Nat), pipeWorks s p = true → s.stored = true → s.car.passes.length = 16 →
    (frzOut s p = [i] →
      ∃ t, exec (.blrelease p) s = .next t ∧ t = { s with car := t.car, mem := t.mem, flt := t.flt } ∧ t.flt.logcount = s.flt.logcount + 1
        ∧ baseWord t p i = 256 * (rawNode (rawWord s p i)).n ∧ (getPass t p).frozen.getD i 0 = 0)
    ∧ (frzOut s p = [] → exec (.blrelease p) s = .next s))

/-- R110, R114: PIPECMD. RESEAT clears BVALID of the named pass and begins 32 tracking frames, with the next frame where the pipeline works on
one of the pass; RETRACK begins 16 frames of fast tracking; no other pass changes. Between frames nothing else does; in a frame, PEAK zones of the pass that fall back may be evaluated
(R183). A pass the program does not run, or a LISTEN pass, is not affected. -/
def Obligations.PipelineCommandsReseatAndRetrack : Prop :=
  ∀ (s : State) (w : W16), spaceOpen s = true → s.car.passes.length = 16 →
    let p := fld w 0 4
    (p ∈ passList (reg s) (actProg s) → ownsArea (reg s) (actProg s) p = true →
      (fld w 4 2 = 1 → ∃ t, exec (.reseat w) s = .next t
        ∧ getPass t p = { getPass s p with bvalid := false, seat := if (getPass s p).pipe.isSome then 33 else 32, retrack := none } ∧ (∀ q, q ≠ p → getPass t q = getPass s q)
        ∧ t.regs = s.regs ∧ t.mem = s.mem ∧ t.cpu = s.cpu ∧ t.beat = s.beat
        ∧ (s.beat.running = false → t = { s with car := { s.car with passes := t.car.passes } }))
      ∧ (fld w 4 2 = 2 → ∃ t, exec (.retrack w) s = .next t ∧ t = { s with car := { s.car with passes := t.car.passes } }
        ∧ getPass t p = { getPass s p with retrack := some 16 } ∧ (∀ q, q ≠ p → getPass t q = getPass s q)))
    ∧ (p ∉ passList (reg s) (actProg s) ∨ ownsArea (reg s) (actProg s) p = false →
      exec (.reseat w) s = .next s ∧ exec (.retrack w) s = .next s)

/-- R131, R132, R330, R135, R136: the streamer sends every row of a finished pass in segments of 64 delta words or 32 raw words, once, in the
frames whose FRAMESEQ is a multiple of 2^DIV (the model's reading, log 28): a manager into its Bulk Queue, a worker to its uplink, where
those that find no room are discarded and counted. A pass whose pipeline is fenced sends nothing. A recognised gesture is written to LAST,
the first one found first (log 27), and in WATCH wakes the device toward SCAN when its bit of GESTCFG is set. -/
def Obligations.StreamsAndGesturesAreDelivered : Prop :=
  (∀ (s : State) (p : Fin 16) (n : W16), streamOn s p = true → coreRuns s = true → (getPass s p).image = some n → s.car.passes.length = 16 →
    n.toNat % 2 ^ rf (reg s) 0x1246 2 4 = 0 → bit s.mem.granFen (gbase (reg s) (actProg s) p / 0x10000) = false →
    let u : State := { s with car := { s.car with passes := upd s.car.passes p (fun x => { x with image := none }) } }
    ((getPass s p).pipeFen = true → exec (.streamFrame p) s = .next u)
    ∧ ((getPass s p).pipeFen = false → s.mem.bad = [] → s.mem.soft = [] →
      (∀ t, t < rowCount (reg s) (actProg s) p → streamGood s p t = true) →
      let segs := rowCount (reg s) (actProg s) p * ceilDiv (colCount (reg s) (actProg s) p) (if streamRaw s then 32 else 64)
      (isManager s = true →
        ∃ t, exec (.streamFrame p) s = .next t ∧ t = { u with bq := { s.bq with ready := t.bq.ready } }
          ∧ s.bq.ready <+: t.bq.ready ∧ t.bq.ready.length = s.bq.ready.length + segs)
      ∧ (isManager s = false →
        ∃ t, exec (.streamFrame p) s = .next t ∧ t = { u with lnk := t.lnk, bq := { s.bq with loss := t.bq.loss } }
          ∧ (bulkRoom s = false → t.lnk = s.lnk ∧ t.bq.loss = satAdd s.bq.loss segs)
          ∧ (bulkRoom s = true → segs = 1 → ∃ last, t = sendUp u (mkParcel s tyBulk (ringAddr s) (frameQ s)
              (streamPayload u p 0 0 (colCount (reg s) (actProg s) p) last))))))
  ∧ (∀ (s : State) (p : Fin 16), (getPass s p).image = none → exec (.streamFrame p) s = .next s)
  ∧ (∀ (s : State) (c : BitVec 4) (rest : List (BitVec 4)), s.car.gest.found = c :: rest →
    (s.pwr.mode ≠ .watch →
      exec .gesture s = .next { s with car := { s.car with gest := { s.car.gest with last := c, found := rest } } })
    ∧ (s.pwr.mode = .watch → s.pwr.change = .idle → bit (reg s 0x1248) (c.toNat - 1) = true →
      exec .gesture s = .next { s with
        car := { s.car with gest := { s.car.gest with last := c, found := rest } }
        pwr := { s.pwr with wakecause := (s.pwr.wakecause &&& 0xFCFF) ||| 4 ||| 0x0100, irqstat := putBit s.pwr.irqstat 5 true
                            reqMode := .scan, change := .watchToScan, mbusy := true } }))
  ∧ (∀ s : State, s.car.gest.found = [] → exec .gesture s = .next s)

/-! ### Converters and auxiliary channels -/

/-- R146, R154, R155, R156, R177: the check slot of a frame, once it has completed, gives each converter its deviation in 1/8 counts, the eight
samples limited to 12 bits, from the code of the beat's level, 512 + 1,024 L and up to a count from that, L the beat's number modulo 4 (that order,
and the limit of the samples, are the model's reading, log 37). One that deviates by more than
CHKLIM / 2 counts, and from its partner by more than CHKLIM counts unless that is fenced, is marked failed and fenced, and no other is;
CHKLIM 0 and 1 act as 2. A frame's check slot is judged once. -/
def Obligations.CheckSlotsFenceDeviatedConverters : Prop :=
  ∀ (s : State) (samples : List (List Int)),
    let d := fun k => checkDev s (samples.getD k [])
    let bad := fun k : Fin 4 => deviated s k (if k.val % 2 = 0 then k.val + 1 else k.val - 1) d
    let lim := max 2 (rf (reg s) 0x10002 0 8)
    let pair := fun k : Fin 4 => if k.val % 2 = 0 then k.val + 1 else k.val - 1
    (∃ e : Int, (e = -1 ∨ e = 0 ∨ e = 1) ∧ ∀ k,
      d k = ((samples.getD k []).map (limit 0 4095)).foldl (fun a x => a + x) 0 - 8 * (512 + 1024 * (s.beat.no.toNat % 4 : Nat) + e))
    ∧ (∀ k : Fin 4, bad k = true ↔ bit s.aux.adcFen k = false ∧ 4 * lim < (d k).natAbs
        ∧ (bit s.aux.adcFen (pair k) = false → 8 * lim < (d k - d (pair k)).natAbs))
    ∧ (checkDue s = true →
      ∃ t, exec (.checkSlotDone samples) s = .next t ∧ t.aux.checked = true
        ∧ t.aux.chkdev = [0, 1, 2, 3].map d
        ∧ (∀ k, bad k = true → bit t.aux.adcFen k = true ∧ bit t.aux.adcFail k = true)
        ∧ (∀ k, bad k = false → bit t.aux.adcFen k = bit s.aux.adcFen k)
        ∧ t.regs.staged = s.regs.staged ∧ t.mem = s.mem ∧ t.cpu = s.cpu ∧ t.beat = s.beat)
    ∧ (checkDue s = false → exec (.checkSlotDone samples) s = .next s)

/-- R148, R150, R151, R152, R161, R162: a comparator takes its input's state against its window, with the hysteresis on re-entry; the first it
takes is no crossing (that it is taken without hysteresis is the model's choice, log 31). A crossing of the selected direction makes its
channel's urgent request where URG is set, which discards a sequenced slot in progress, and wakes in WATCH where WAKE is. The waiting channel
served next is converted once it has tracked and no slot or reserved use stands in the way, and is counted; a track part of its own channel
that it takes starts over. -/
def Obligations.CrossingsRequestUrgentConversions : Prop :=
  (∀ (s : State) (k : Fin 4) (level : Int), auxRuns s = true → rbit (reg s) (axKey k 5) 0 = true →
    let inside := cmpInside s k level
    let u : State := { s with aux := { s.aux with cmp := putBit s.aux.cmp k inside, cmpNew := putBit s.aux.cmpNew k false } }
    let crossed := bit s.aux.cmpNew k = false ∧ bit s.aux.cmp k ≠ inside ∧ crossing s k inside = true
    (bit s.aux.cmpNew k = true ∨ bit s.aux.cmp k = true → (inside = true ↔ cmpLow s k ≤ level ∧ level ≤ cmpHigh s k))
    ∧ (bit s.aux.cmpNew k = false → bit s.aux.cmp k = false →
        (inside = true ↔ cmpLow s k + cmpHys s k ≤ level ∧ level ≤ cmpHigh s k - cmpHys s k))
    ∧ (¬ crossed → exec (.comparatorCrossing k level) s = .next u)
    ∧ (crossed → rbit (reg s) (axKey k 5) 7 = true → s.pwr.mode = .scan →
        ∃ t, exec (.comparatorCrossing k level) s = .next t ∧ t = { s with aux := t.aux }
          ∧ t.aux.cmp = u.aux.cmp ∧ t.aux.cmpNew = u.aux.cmpNew ∧ t.aux.waiting = putBit s.aux.waiting k true
          ∧ t.aux.flight = s.aux.flight.filter (fun c => !(isSeq c && slotNow s c)))
    ∧ (crossed → rbit (reg s) (axKey k 5) 7 = false → rbit (reg s) (axKey k 5) 6 = true → s.pwr.mode = .watch → s.pwr.change = .idle →
        exec (.comparatorCrossing k level) s = .next { u with
          pwr := { s.pwr with wakecause := (s.pwr.wakecause &&& 0xFCFF) ||| 16 ||| 0x0100, irqstat := putBit s.pwr.irqstat 5 true
                              reqMode := .scan, change := .watchToScan, mbusy := true } }))
  ∧ (∀ (s : State) (x : AuxSample),
    let v := auxNow s
    (∀ ch : Nat, nextUrgent v = some ch → urgentFree v ch = true → ratiometric v ch = false ∨ x.vref ≠ 0 →
      let since := v.beat.now - acqClocks v ch
      let taken := v.aux.phase = .track ∧ seqChan v = ch
      exec (.urgentConversion x.toAuxInputs x.vref) s = .next { v with aux := { v.aux with
        waiting := putBit v.aux.waiting ch false, first := none
        urgcnt := if v.aux.first = some ch then v.aux.urgcnt else satInc v.aux.urgcnt
        discnt := if taken then satInc v.aux.discnt else v.aux.discnt
        since := if taken then v.beat.now + 8 else v.aux.since
        tracked := upd v.aux.tracked ch (fun _ => v.beat.now + 8)
        flight := v.aux.flight ++ [{ ch := ch, raw := (convert v ch x since v.beat.free).1, clip := (convert v ch x since v.beat.free).2
                                     kind := .urgent, adc := v.aux.effAdc.toNat, slot := v.beat.now
                                     entry := v.aux.entry, rep := v.aux.reps + 1 }] } })
    ∧ ((∀ ch, nextUrgent v = some ch → urgentFree v ch = false) → exec (.urgentConversion x.toAuxInputs x.vref) s = .next v))

/-- R149, R150, R151, R157, R163, R164: the sequencer. An entry's DELAY ends in its track part; once the channel has tracked for TACQ and
no slot, urgent request or reserved use stands in the way, the next repeat, of an entry or of a calibration command, takes its slot, and its
code is 4096 G (Vp - Vn) over the reference, rounded, exact halves upward (the model's reading, log 30), and limited to the channel's range,
CLIP where it was limited; a repeat that a reserved use falls into is discarded, counted and
taken again after a fresh track part (that it is discarded at this row, the rest of the slot foreseen, is the model's choice, log 31). -/
def Obligations.SequencerConvertsItsEntries : Prop :=
  (∀ s : State,
    let v := auxNow s
    let due := v.aux.since + entryDelay v
    (v.aux.phase = .delay → seqStopped v = false → due ≤ v.beat.now →
      exec .seqEntryStart s = .next { v with aux := { v.aux with phase := .track, since := due } })
    ∧ (v.aux.phase ≠ .delay ∨ seqStopped v = true ∨ v.beat.now < due → exec .seqEntryStart s = .next v))
  ∧ (∀ (s : State) (x : AuxSample),
    let v := auxNow s
    let ch := seqChan v
    let a := v.aux.effAdc.toNat
    let n := rf (reg v) (seqKey v.aux.entry 0) 8 8 + 1
    let vref : Nat := if rbit (reg v) (axKey ch 0) 6 then 1200000 else x.vref
    let lo : Int := if axSingle v ch then 0 else -2048
    let hi : Int := if axSingle v ch then 4095 else 2047
    let code : Int := roundDiv (4096 * 2 ^ rf (reg v) (axKey ch 0) 1 3 * (x.vp - x.vn)) vref
    (seqFree v = true → reservedIn v a (v.beat.clk + 1) 7 = false → vref ≠ 0 →
      exec (.seqConversion x.toAuxInputs x.vref) s = .next { v with aux := { v.aux with
        reps := v.aux.reps + 1, phase := .slot, since := v.beat.now
        tracked := upd v.aux.tracked ch (fun _ => v.beat.now + 8)
        flight := v.aux.flight ++ [{ ch := ch, raw := limit lo hi code, clip := sampleClip v ch x v.aux.since || code != limit lo hi code
                                     kind := if v.aux.cal.active then .cal
                                       else if rbit (reg v) (seqKey v.aux.entry 0) 3 then .mean (decide (n ≤ v.aux.reps + 1)) n else .each
                                     adc := a, slot := v.beat.now, entry := v.aux.entry, rep := v.aux.reps + 1 }] } })
    ∧ (seqFree v = true → reservedIn v a (v.beat.clk + 1) 7 = true → v.aux.flight.any (fun c => isSeq c && slotNow v c) = false →
        ∃ t, exec (.seqConversion x.toAuxInputs x.vref) s = .next t ∧ t.aux.discnt = satInc v.aux.discnt ∧ t.aux.flight = v.aux.flight
          ∧ t.aux.reps = v.aux.reps ∧ t.aux.entry = v.aux.entry ∧ t.aux.phase = .track ∧ t.aux.since = v.beat.now + 8
          ∧ t.regs = v.regs ∧ t.mem = v.mem)
    ∧ (seqFree v = false → exec (.seqConversion x.toAuxInputs x.vref) s = .next v))

/-- R167, R168, R170, R171, R188: a result appears ten clocks after its sample: corrected by its channel's OFS and GAIN, those in force when it
appears (the model's reading, log 32), rounded to counts and limited, in the staged alignment; with MEAN, the sum of the entry's repeats is
divided by their number, and only the last delivers, in 1/16 counts. VALID is set, and a result that was still valid is lost with its
channel noted. An urgent one is evaluated at once by the channel's zones.
R169: a read of AUXDATA by the side that CONSUMER names answers the latest result, clears VALID and latches what describes the result;
by the other side it changes nothing but what the host port drives and the window access that it ends (R276). -/
def Obligations.AuxResultsDeliveredAndRead : Prop :=
  (∀ (s : State) (bad : Bool),
    let v := auxNow s
    (∀ (c : Conv) (rest : List Conv), v.aux.flight = c :: rest → c.slot + 18 ≤ v.beat.now →
      c.ch < 8 → v.aux.last.length = 8 → v.aux.age.length = 8 → swf regReset v.regs.force = true →
      let counts : Int → Int := fun y => if axSingle v c.ch then limit 0 4095 ((y + 8) >>> 4) else limit (-2048) 2047 ((y + 8) >>> 4)
      let fine : Int → Int := fun y => if axSingle v c.ch then limit 0 65535 y else limit (-32768) 32767 y
      let x : Int := ((16 * c.raw - (reg v (axKey c.ch 1)).toInt) * (reg v (axKey c.ch 2)).toNat + 8192) >>> 14
      let clip1 := c.clip || bad || ((x + 8) >>> 4) != counts x
      let given (t : State) (y : Int) (clip urg : Bool) : Prop :=
        t.aux.flight = rest ∧ t.aux.valid = true ∧ t.aux.ch = BitVec.ofNat 3 c.ch ∧ t.aux.urg = urg ∧ t.aux.clip = clip
        ∧ t.aux.data = BitVec.ofInt 16 (if bit (stg v 0x10000) 0 then y else counts y)
        ∧ t.aux.last.getD c.ch 0 = BitVec.ofInt 16 y ∧ t.aux.age.getD c.ch 0 = (if clip then v.aux.age.getD c.ch 0 else 0)
        ∧ t.aux.ovr = (v.aux.ovr || v.aux.valid) ∧ t.aux.lostch = (if v.aux.valid then v.aux.ch else v.aux.lostch)
        ∧ (∀ key, key ≠ 0x10000 → reg t key = reg v key)
      (c.kind = .each →
        ∃ t, exec (.auxResult bad) s = .next t ∧ t = { v with aux := t.aux, regs := { v.regs with force := t.regs.force } }
          ∧ given t (16 * counts x) clip1 false)
      ∧ (c.kind = .urgent →
        ∃ t, exec (.auxResult bad) s = .next t ∧ given t (16 * counts x) clip1 true ∧ t.mem = v.mem ∧ t.cpu = v.cpu ∧ t.beat = v.beat ∧ t.car = v.car
          ∧ (s.jtag.ir ≠ .extest → s.zon.zones.length = 32 → ∀ z : Fin 32, zoneKind (reg v) z = 2 → zoneIdx (reg v) z % 8 = c.ch →
              (getZone t z).metric = zoneLevel t z (zoneBz t z)
              ∧ ((getZone t z).bvalid = true → unmeasurable t z = false → rf (reg v) (zoneKey z 2) 0 4 = 0 →
                  zoneOn t z ≤ (getZone t z).metric → (getZone t z).trip = true)))
      ∧ (∀ n, c.kind = .mean false n → exec (.auxResult bad) s = .next { v with aux := { v.aux with
          flight := rest, sum := v.aux.sum + x, sumClip := v.aux.sumClip || (c.clip || bad) } })
      ∧ (∀ n, c.kind = .mean true n →
        let m := roundDiv (v.aux.sum + x) n
        ∃ t, exec (.auxResult bad) s = .next t ∧ t = { v with aux := t.aux, regs := { v.regs with force := t.regs.force } }
          ∧ given t (fine m) (v.aux.sumClip || (c.clip || bad) || m != fine m) false ∧ t.aux.sum = 0 ∧ t.aux.sumClip = false))
    ∧ ((∀ c rest, v.aux.flight = c :: rest → v.beat.now < c.slot + 18) → exec (.auxResult bad) s = .next v))
  ∧ (∀ s : State, hostAnswers s = true → inRun s = true → alive s.pwr.sense = true →
    let u := settle s
    (rbit (reg u) 0x10000 1 = false → exec (.auxdataRead .host) s = .next { u with
        aux := { u.aux with valid := false, rch := u.aux.ch, rurg := u.aux.urg, rclip := u.aux.clip }, win := { u.win with hd := u.aux.data } })
    ∧ (rbit (reg u) 0x10000 1 = true → exec (.auxdataRead .host) s = .next { u with win := { u.win with hd := u.aux.data } }))
  ∧ (∀ s : State, coreRuns s = true →
    (rbit (reg s) 0x10000 1 = true → exec (.auxdataRead .carud) s = .next { s with
        aux := { s.aux with valid := false, rch := s.aux.ch, rurg := s.aux.urg, rclip := s.aux.clip } })
    ∧ (rbit (reg s) 0x10000 1 = false → exec (.auxdataRead .carud) s = .next s))

/-- R36, R159, R171, R391: a channel whose age exceeds MAXAGE trips its zones as unmeasurable; the excitation outputs' marks follow what
happens at the output: an enabled one that reaches its current limit is marked and logged once, REFBAD follows the sensed voltage against
half the set one, and a driver that its limiter switched off senses nothing until it recovers. Each of these marks CLIP the ratiometric
conversions that it finds in their slot. -/
def Obligations.ExcitationMarksFollowTheirOutputs : Prop :=
  let marked (s : State) : State := { s with aux := { s.aux with flight := s.aux.flight.map (fun c =>
    let j := rf (reg s) (axKey c.ch 0) 7 2
    if slotNow s c && (!(rbit (reg s) (axKey c.ch 0) 6) && (excBad s j || excLimited s j)) then { c with clip := true } else c) } }
  (∀ (s : State) (ch : Fin 8), s.zon.zones.length = 32 →
    (auxUnmeasurable s ch = true → s.jtag.ir ≠ .extest →
      ∃ t, exec (.auxChannelUnmeasurable ch) s = .next t ∧ t.regs = s.regs ∧ t.mem = s.mem ∧ t.aux = s.aux
        ∧ (∀ z : Fin 32, zoneKind (reg s) z = 2 → zoneIdx (reg s) z % 8 = ch.val → (getZone t z).trip = true ∧ (getZone t z).unmeas = true))
    ∧ (auxUnmeasurable s ch = false ∨ s.jtag.ir = .extest → exec (.auxChannelUnmeasurable ch) s = .next s))
  ∧ (∀ (s : State) (j : Fin 4),
    (rbit (reg s) (0x1000C + j) 0 = true → senseRuns s = true → bit s.aux.excLim j = false →
      exec (.excOverload ⟨j, true⟩) s = .next (logEv (marked { s with aux := { s.aux with
        excOvl := putBit s.aux.excOvl j true, excLim := putBit s.aux.excLim j true } }) 0x0F j 0))
    ∧ (rbit (reg s) (0x1000C + j) 0 = false ∨ senseRuns s = false ∨ bit s.aux.excLim j = true → exec (.excOverload ⟨j, true⟩) s = .next s)
    ∧ exec (.excOverload ⟨j, false⟩) s = .next { s with aux := { s.aux with excLim := putBit s.aux.excLim j false } })
  ∧ (∀ (s : State) (j : Fin 4) (uv : Nat), s.aux.exs.length = 4 →
    let half := 500000 + 50000 * rf (reg s) (0x1000C + j) 1 4
    (uv < half → ∃ t, exec (.excRefbad ⟨j, uv⟩) s = .next t
      ∧ t = marked { s with aux := { s.aux with exs := upd s.aux.exs j (fun _ => some uv) } } ∧ excBad t j = true)
    ∧ (half ≤ uv → exec (.excRefbad ⟨j, uv⟩) s = .next s)
    ∧ (half ≤ uv → ∃ t, exec (.excRefbadClear ⟨j, uv⟩) s = .next t
      ∧ t = { s with aux := { s.aux with exs := upd s.aux.exs j (fun _ => some uv) } } ∧ ((excDrive s j).isSome = true → excBad t j = false))
    ∧ (uv < half → exec (.excRefbadClear ⟨j, uv⟩) s = .next s))
  ∧ (∀ (s : State) (j : Fin 4),
    (∃ t, exec (.excThermalTrip j) s = .next t ∧ t = marked { s with aux := { s.aux with excOff := putBit s.aux.excOff j true } }
      ∧ excDrive t j = none ∧ excBad t j = true)
    ∧ exec (.excThermalRecover j) s = .next { s with aux := { s.aux with excOff := putBit s.aux.excOff j false } })

/-- R172, R173, R174, R175: AXCAL. A command waits for the sequence loop boundary, or begins at once where the sequencer stands still; a second
one is ignored and marked; the want of a converter, or the hold-over beats, end it at once with ABORTED, and its end is a loop boundary: the
values that wait take force, and the sequencer begins at entry 0 where it runs. Each of its 256 conversions adds its raw code, and the results of
conversions without CLIP give ZERO the channel's OFS, their rounded mean in 1/16 counts, staged and in force, and SPAN its GAIN, or RANGE where
that is 0, negative (the model's reading, log 35) or beyond 16 bits; one CLIP ends the command with CLIPPED. -/
def Obligations.SystemCalibrationSetsCoefficients : Prop :=
  (∀ (s : State) (w : W16), spaceOpen s = true →
    let v := auxNow s
    let cal : AxCal := { v.aux.cal with active := false, ch := fld w 0 3, span := fld w 4 2 == 2 }
    ∀ c : Instr, (c = .axcalZero w ∧ fld w 4 2 = 1) ∨ (c = .axcalSpan w ∧ fld w 4 2 = 2) →
      (v.aux.cal.busy = true → exec c s = .next { v with aux := { v.aux with cal := { v.aux.cal with ign := true } } })
      ∧ (v.aux.cal.busy = false → v.aux.noAdc = true ∨ auxRuns v = false →
          ∃ t, exec c s = .next t ∧ t.aux.cal = { cal with busy := false, res := 4 } ∧ t.regs.auxWait = []
            ∧ t = { v with aux := t.aux, regs := { v.regs with auxWait := [], force := t.regs.force } }
            ∧ (v.regs.auxWait = [] → t.regs.force = v.regs.force)
            ∧ (∀ key x, v.regs.auxWait = [(key, x)] → key ≠ 0x10000 → swf regReset v.regs.force = true →
                reg t key = x ∧ ∀ j, j ≠ key → reg t j = reg v j)
            ∧ (auxRuns v = true → rbit (reg t) 0x10000 4 = true → t.aux.phase = .delay ∧ t.aux.entry = 0 ∧ t.aux.reps = 0 ∧ t.aux.since = v.beat.now)
            ∧ (auxRuns v = false → t.aux.phase = v.aux.phase ∧ t.aux.entry = v.aux.entry))
      ∧ (v.aux.cal.busy = false → v.aux.noAdc = false → auxRuns v = true → seqStopped v = false →
          exec c s = .next { v with aux := { v.aux with cal := { cal with busy := true } } })
      ∧ (v.aux.cal.busy = false → v.aux.noAdc = false → auxRuns v = true → seqStopped v = true →
          exec c s = .next { v with aux := { v.aux with
            phase := .track, since := v.beat.now, reps := 0
            cal := { cal with busy := true, active := true, got := 0, sum := 0, clip := false } } }))
  ∧ (∀ s : State,
    let v := auxNow s
    (v.aux.cal.busy = true → v.aux.cal.active = false → seqStopped v = true →
      exec .axcalStart s = .next { v with aux := { v.aux with
        phase := .track, since := v.beat.now, reps := 0, cal := { v.aux.cal with active := true, got := 0, sum := 0, clip := false } } })
    ∧ (v.aux.cal.busy = false ∨ v.aux.cal.active = true ∨ seqStopped v = false → exec .axcalStart s = .next v))
  ∧ (∀ (s : State) (bad : Bool) (c : Conv) (rest : List Conv),
    let v := auxNow s
    v.aux.flight = c :: rest → c.kind = .cal → c.slot + 18 ≤ v.beat.now →
      exec (.auxResult bad) s = .next { v with aux := { v.aux with
        flight := rest
        cal := { v.aux.cal with got := v.aux.cal.got + 1, sum := v.aux.cal.sum + c.raw, clip := v.aux.cal.clip || c.clip || bad } } })
  ∧ (∀ (s : State) (ch : Fin 8), s.aux.cal.busy = true → s.aux.cal.active = true → 256 ≤ s.aux.cal.got →
    s.aux.cal.ch = ch → swf regReset s.regs.force = true → swf regReset s.regs.staged = true →
    let sum := s.aux.cal.sum
    (s.aux.cal.clip = true →
        ∃ t, exec (.axcalDone ch) s = .next t ∧ t.aux.cal.busy = false ∧ t.aux.cal.res = 2 ∧ t.regs.staged = s.regs.staged)
    ∧ (s.aux.cal.clip = false → s.aux.cal.span = false → -32768 ≤ roundDiv sum 16 → roundDiv sum 16 ≤ 32767 →
        ∃ t, exec (.axcalDone ch) s = .next t ∧ t.aux.cal.busy = false ∧ t.aux.cal.res = 1
          ∧ reg t (axKey ch 1) = BitVec.ofInt 16 (roundDiv sum 16) ∧ stg t (axKey ch 1) = BitVec.ofInt 16 (roundDiv sum 16)
          ∧ (∀ key, key ≠ axKey ch 1 → stg t key = stg s key) ∧ t.mem = s.mem)
    ∧ (s.aux.cal.clip = false → s.aux.cal.span = true →
        let a := roundDiv sum 16 - (reg s (axKey ch 1)).toInt
        let g := roundDivI (16384 * spanTarget s) a
        (a ≠ 0 → 0 < g → g < 65536 → ∃ t, exec (.axcalDone ch) s = .next t ∧ t.aux.cal.busy = false ∧ t.aux.cal.res = 1
          ∧ reg t (axKey ch 2) = BitVec.ofInt 16 g ∧ stg t (axKey ch 2) = BitVec.ofInt 16 g)
        ∧ (a = 0 ∨ g ≤ 0 ∨ 65536 ≤ g →
          ∃ t, exec (.axcalDone ch) s = .next t ∧ t.aux.cal.busy = false ∧ t.aux.cal.res = 3 ∧ t.regs.staged = s.regs.staged)))
  ∧ (∀ (s : State) (ch : Fin 8), s.aux.cal.busy = false ∨ s.aux.cal.active = false ∨ s.aux.cal.got < 256 ∨ s.aux.cal.ch ≠ ch →
    exec (.axcalDone ch) s = .next s)

/-! ### Zones -/

/-- R188, R189, R191, R36: a zone trips when its trip count is complete, when a condition of R36 holds, or when it has been held for
STLIM + 1 frames: ZTRIP and the trip counter follow, permits mapped to it turn OFF and count anew, a worker readies an ALERT with the
trip states; a condition of R36 shows in UNMEAS, unless the zone is disabled (R204). A tripped zone releases when its release count is complete, with no condition of R36 and no latch; a latched one by ZCLR,
when its latest level is at most ZTHOFF. -/
def Obligations.ZonesTripAndRelease : Prop :=
  (∀ (s : State) (z : Fin 32) (by_ : Instr), s.jtag.ir ≠ .extest → s.zon.zones.length = 32 → s.out.permits.length = 4 →
    s.lnk.ports.length = 6 → (getZone s z).trip = false →
    (by_ = .zoneTrip z ∧ (rf (reg s) (zoneKey z 2) 0 4 + 1 ≤ (getZone s z).tcnt ∨ r36 s z = true))
      ∨ (by_ = .zoneUnmeasTrip z ∧ rf (reg s) (zoneKey z 1) 13 2 + 1 ≤ (getZone s z).hcnt) →
    ∃ t, exec by_ s = .next t
      ∧ t = { s with
          zon := { s.zon with zones := t.zon.zones }
          out := { s.out with permits := t.out.permits, sinceAlert := if isWorker s then 0 else s.out.sinceAlert }
          lnk := { s.lnk with ports := t.lnk.ports }
          pwr := { s.pwr with irqstat := putBit s.pwr.irqstat 3 true } }
      ∧ getZone t z = { getZone s z with
          trip := true, tripcnt := satInc (getZone s z).tripcnt, tcnt := 0, rcnt := 0, clear := 0, latched := rbit (reg s) (zoneKey z 1) 15
          unmeas := if by_ = .zoneUnmeasTrip z then true
            else if rf (reg s) (zoneKey z 2) 0 4 + 1 ≤ (getZone s z).tcnt then (getZone s z).unmeas else decide (zoneKind (reg s) z ≠ 0) }
      ∧ (∀ y : Fin 32, y ≠ z → getZone t y = getZone s y)
      ∧ (∀ k : Fin 4, z.val ∈ zonesOf s k → (getPermit t k).cmd = false)
      ∧ (∀ k : Fin 4, z.val ∉ zonesOf s k → (getPermit t k).cmd = (getPermit s k).cmd)
      ∧ (isWorker s = true → ∃ a, a ∈ (getPort t 0).alerts ∧ a.typ = tyAlert ∧ a.src = ownAddr s ∧ a.payload = be32 (tripWord t))
      ∧ (isWorker s = false → t.lnk = s.lnk))
  ∧ (∀ (s : State) (z : Fin 32), (getZone s z).tcnt < rf (reg s) (zoneKey z 2) 0 4 + 1 →
      (r36 s z = false → exec (.zoneTrip z) s = .next s)
      ∧ (s.jtag.ir ≠ .extest → (getZone s z).trip = true → r36 s z = true →
          exec (.zoneTrip z) s = .next (setZone s z (fun x => { x with unmeas := decide (zoneKind (reg s) z ≠ 0) }))))
  ∧ (∀ (s : State) (z : Fin 32), (getZone s z).hcnt < rf (reg s) (zoneKey z 1) 13 2 + 1 → exec (.zoneUnmeasTrip z) s = .next s)
  ∧ (∀ (s : State) (z : Fin 32), s.jtag.ir ≠ .extest → s.zon.zones.length = 32 → (getZone s z).trip = true →
    (rf (reg s) (zoneKey z 2) 4 8 + 1 ≤ (getZone s z).rcnt → r36 s z = false → rbit (reg s) (zoneKey z 1) 15 = false →
      ∃ t, exec (.zoneRelease z) s = .next t
        ∧ t = { s with zon := { s.zon with zones := t.zon.zones }, lnk := { s.lnk with ports := t.lnk.ports }
                       out := { s.out with sinceAlert := if isWorker s then 0 else s.out.sinceAlert } }
        ∧ getZone t z = { getZone s z with trip := false, tcnt := 0, rcnt := 0, latched := false, unmeas := false,
                                             clear := b2n (getZone s z).seen }
        ∧ (∀ y : Fin 32, y ≠ z → getZone t y = getZone s y))
    ∧ ((getZone s z).rcnt < rf (reg s) (zoneKey z 2) 4 8 + 1 ∨ r36 s z = true ∨ rbit (reg s) (zoneKey z 1) 15 = true →
      exec (.zoneRelease z) s = .next s))
  ∧ (∀ (s : State) (hi : Bool) (w : W16), s.jtag.ir ≠ .extest → spaceOpen s = true → s.zon.zones.length = 32 →
    ∃ t, exec (.zclr hi w) s = .next t
      ∧ t = { s with zon := { s.zon with zones := t.zon.zones }, lnk := { s.lnk with ports := t.lnk.ports }
                     out := { s.out with sinceAlert := t.out.sinceAlert } }
      ∧ (∀ z : Fin 32,
          let clears := z.val / 16 = b2n hi ∧ bit w (z.val % 16) = true ∧ (getZone s z).trip = true ∧ rbit (reg s) (zoneKey z 1) 15 = true
            ∧ r36 s z = false ∧ (getZone s z).metric ≤ zoneOff s z
          (clears → (getZone t z).trip = false ∧ (getZone t z).latched = false) ∧ (¬ clears → getZone t z = getZone s z)))

/-- R36, R185, R186, R188, R189: one evaluation. A zone with a valid baseline and a measurable source is compared with its thresholds:
DEB + 1 evaluations in a row at or above ZTHON trip it, REL + 1 at or below ZTHOFF release it unless it latches, and a tracked baseline
moves only while it is untripped at or below ZTHOFF. A held zone keeps its state until STLIM + 1 frames have passed. Every condition of
R36 trips it, and a baseline that is not valid is seated.
R185, R187, R179: a baseline is valid after 32 evaluations and 32 frames of scanning, in the 32nd already once the zone has been evaluated in it (the
model's reading, log 39); a zone
that tracks is seated anew when its source has been missing for more than 64 frames, or when a bitmap word that it uses changes; a bitmap
word is written at the access. -/
def Obligations.EvaluationsAndBaselines : Prop :=
  (
    ∀ (s : State) (z : Fin 32), s.zon.zones.length = 32 →
      let x := getZone s z
      let y := getZone (evalZone s z (zoneHeld s z)) z
      let e := zoneLevel s z (zoneBz s z)
      let deb := rf (reg s) (zoneKey z 2) 0 4
      let rel := rf (reg s) (zoneKey z 2) 4 8
      y.inFrame = true ∧ y.since = 0
      ∧ (∀ w : Fin 32, w ≠ z → getZone (evalZone s z (zoneHeld s z)) w = getZone s w)
      ∧ (unmeasurable s z = false → x.bvalid = true → zoneHeld s z = false →
          y.metric = e ∧ y.held = false ∧ y.hcnt = 0 ∧ y.bvalid = true
          ∧ (x.trip = false → zoneOn s z ≤ e → deb ≤ x.tcnt → y.trip = true)
          ∧ (x.trip = false → zoneOn s z ≤ e → x.tcnt < deb → y.trip = false ∧ y.tcnt = x.tcnt + 1)
          ∧ (x.trip = false → e < zoneOn s z → y.trip = false ∧ y.tcnt = 0)
          ∧ (x.trip = true → e ≤ zoneOff s z → rel ≤ x.rcnt → rbit (reg s) (zoneKey z 1) 15 = false → y.trip = false)
          ∧ (x.trip = true → e ≤ zoneOff s z → x.rcnt < rel ∨ rbit (reg s) (zoneKey z 1) 15 = true → y.trip = true ∧ y.rcnt = x.rcnt + 1)
          ∧ (x.trip = true → zoneOff s z < e → y.trip = true ∧ y.rcnt = 0)
          ∧ (let rate := rf (reg s) (zoneKey z 1) 5 4
             let moves := y.trip = false ∧ e ≤ zoneOff s z ∧ zoneFixed (reg s) z = false ∧ rate ≠ 0
             (moves → y.base = x.base + ((zoneSum s z * 256 - x.base) >>> rate)) ∧ (¬ moves → y.base = x.base)))
      ∧ (unmeasurable s z = false → x.bvalid = true → zoneHeld s z = true →
          y.held = true ∧ y.hcnt = x.hcnt + 1 ∧ y.metric = x.metric ∧ y.base = x.base
          ∧ (rf (reg s) (zoneKey z 1) 13 2 ≤ x.hcnt → y.trip = true ∧ y.unmeas = true)
          ∧ (x.hcnt < rf (reg s) (zoneKey z 1) 13 2 → y.trip = x.trip ∧ y.tcnt = x.tcnt ∧ y.rcnt = x.rcnt))
      ∧ (unmeasurable s z = true ∨ x.bvalid = false → y.trip = true ∧ y.unmeas = true ∧ y.tcnt = 0 ∧ y.rcnt = 0)
      ∧ (x.bvalid = false → zoneHeld s z = false → zoneKind (reg s) z ≠ 0 →
          y.evals = x.evals + 1 ∧ y.bvalid = seatDone s z (x.evals + 1)
          ∧ y.base = if x.evals = 0 then zoneSum s z * 256 else x.base + ((zoneSum s z * 256 - x.base) >>> 2)))
  ∧ (
    (∀ (s : State) (z : Fin 32), s.jtag.ir ≠ .extest →
      (33 ≤ s.beat.scanFrames ∨ (s.beat.scanFrames = 32 ∧ (getZone s z).inFrame = true) → zoneFixed (reg s) z = true ∨ 32 ≤ (getZone s z).evals →
        exec (.zoneBaselineValid z) s = .next (setZone s z (fun x => { x with bvalid := true })))
      ∧ (s.beat.scanFrames < 32 ∨ (s.beat.scanFrames = 32 ∧ (getZone s z).inFrame = false)
          ∨ (zoneFixed (reg s) z = false ∧ (getZone s z).evals < 32) → exec (.zoneBaselineValid z) s = .next s)
      ∧ (64 < (getZone s z).since → rbit (reg s) (0x4800 + 16 * z) 15 = false →
        exec (.zoneSourceTimeout z) s = .next (setZone s z (fun x => { x with bvalid := false, evals := 0, tcnt := 0, rcnt := 0 })))
      ∧ ((getZone s z).since ≤ 64 → exec (.zoneSourceTimeout z) s = .next s))
    ∧ (∀ (s : State) (adr : BitVec 15) (v : W16), spaceOpen s = true → s.stored = true →
      ∃ t, exec (.zoneBitmapWrite adr v) s = .next t ∧ t = { s with zon := t.zon }
        ∧ (∀ a : Nat, a < 32768 → sget zero16 t.zon.sram a = if a = adr.toNat then v else sget zero16 s.zon.sram a)
        ∧ adr.toNat ∉ t.zon.bad
        ∧ (sget zero16 s.zon.sram adr.toNat = v ∨ zoneUsesWord s adr.toNat = false → t.zon.zones = s.zon.zones)
        ∧ (sget zero16 s.zon.sram adr.toNat ≠ v → zoneUsesWord s adr.toNat = true → s.zon.zones.length = 32 → s.jtag.ir ≠ .extest →
            rbit (reg s) (0x4800 + 16 * (adr.toNat / 1024)) 15 = false → (getZone t (adr.toNat / 1024)).bvalid = false)))

/-! ### Permits and lamps -/

/-- R37, R192, R195, R198, R199, R352: PERMIT_ON commands a permit ON only when every condition of R37 holds and 32 frames have passed since SENSE
started; FORCE turns it OFF; an output that reads ON while commanded OFF latches STUCKON, or BACKFED where other permits are ON, unless a
fault is latched already (the model's choice, log 42), and a thermal trip latches SHORT and turns it OFF, each with PERMFLT and an entry;
BACKFED is judged again once, whatever VFLDOK shows (log 113); PERMCLR clears what is no longer present. -/
def Obligations.PermitsFollowTheirConditions : Prop :=
  ∀ (s : State) (k : Fin 4), s.out.permits.length = 4 →
    let p := getPermit s k
    let only (f : Permit → Permit) : State := { s with out := { s.out with permits := upd s.out.permits k f } }
    let faulted (t : State) (code : BitVec 3) : Prop :=
      t = { s with out := { s.out with permits := t.out.permits, sinceAlert := if isWorker s then 0 else s.out.sinceAlert }
                   lnk := { s.lnk with ports := t.lnk.ports }, flt := t.flt, pwr := { s.pwr with irqstat := putBit s.pwr.irqstat 2 true } }
      ∧ (getPermit t k).fault = code ∧ (getPermit t k).act = true ∧ (getPermit t k).cmd = false
      ∧ t.flt.logcount = s.flt.logcount + 1
      ∧ (∀ j : Fin 4, j ≠ k → (getPermit t j).cmd = (getPermit s j).cmd ∧ (getPermit t j).fault = (getPermit s j).fault)
    (s.pwr.powered = true → s.pwr.vfldOk = true → s.pwr.refStop = false → s.pwr.boot = .run → s.pwr.mode = .scan ∨ s.pwr.mode = .watch →
      sleepAsked s = false → zonesOf s k ≠ [] ∨ entriesOf s k ≠ [] → (∀ z ∈ zonesOf s k, (getZone s z).trip = false) →
      (∀ e ∈ entriesOf s k, entryTripped s e = false) → p.force = false → p.fault = 0 → s.jtag.ir ≠ .extest →
      rf (reg s) 0x4A0A 0 8 + 1 ≤ clearFrames s k → 33 ≤ s.beat.scanFrames → exec (.permitOn k) s = .next (only (fun p => { p with cmd := true })))
    ∧ (s.pwr.vfldOk = false ∨ s.pwr.boot ≠ .run ∨ s.pwr.mode = .hold ∨ s.pwr.mode = .dormant ∨ sleepAsked s = true
        ∨ (∃ z ∈ zonesOf s k, (getZone s z).trip = true) ∨ (∃ e ∈ entriesOf s k, entryTripped s e = true)
        ∨ (zonesOf s k = [] ∧ entriesOf s k = []) ∨ p.force = true ∨ p.fault ≠ 0 ∨ clearFrames s k < rf (reg s) 0x4A0A 0 8 + 1 ∨ s.beat.scanFrames < 33
        ∨ s.pwr.powered = false ∨ s.pwr.refStop = true ∨ s.jtag.ir = .extest →
      exec (.permitOn k) s = .next s)
    ∧ (∀ w : W16, hostAnswers s = true → inRun s = true → (settle s).out.permits.length = 4 → ∃ t, exec (.permitForce w) s = .next t
        ∧ t = { settle s with out := { (settle s).out with permits := t.out.permits } }
        ∧ (getPermit t k).force = bit w k ∧ (getPermit t k).fault = (getPermit (settle s) k).fault
        ∧ (getPermit t k).cmd = ((getPermit (settle s) k).cmd && !(bit w k)))
    ∧ (s.jtag.ir ≠ .extest → p.cmd = false → p.out = true → s.pwr.vfldOk = true → p.fault = 0 →
        (∃ t, exec (.permitReadbackFault k) s = .next t ∧
          ((∀ j : Fin 4, j ≠ k → (getPermit s j).cmd = false) → faulted t 1) ∧ ((∃ j : Fin 4, j ≠ k ∧ (getPermit s j).cmd = true) → faulted t 3)))
    ∧ (p.cmd = true ∨ p.out = false ∨ s.pwr.vfldOk = false ∨ p.fault ≠ 0 → exec (.permitReadbackFault k) s = .next s)
    ∧ (s.jtag.ir ≠ .extest → p.cmd = true → ∃ t, exec (.permitShort k) s = .next t ∧ faulted t 2)
    ∧ (p.cmd = false → exec (.permitShort k) s = .next s)
    ∧ (s.jtag.ir ≠ .extest → p.fault = 3 → p.judge = some 0 →
        (p.out = true → p.cmd = false → ∃ t, exec (.backfedRejudge k) s = .next t ∧ faulted t 1)
        ∧ (p.out = false → exec (.backfedRejudge k) s = .next (only (fun p => { p with judge := none }))))
    ∧ (p.fault ≠ 3 → exec (.backfedRejudge k) s = .next s)
    ∧ (∀ w : W16, spaceOpen s = true → ∃ t, exec (.permclr w) s = .next t ∧ t = { s with out := { s.out with permits := t.out.permits } }
        ∧ (s.jtag.ir ≠ .extest → bit w k = true → p.act = false → (getPermit t k).fault = 0)
        ∧ (s.jtag.ir = .extest ∨ bit w k = false ∨ p.act = true → getPermit t k = p))
    ∧ (∀ on : Bool, exec (.permitReadbackChange k on) s =
        .next (only (fun p => { p with out := on, act := if p.fault = 1 ∨ p.fault = 3 then on && !p.cmd else p.act })))
    ∧ exec (.permitSwitchCooled k) s = .next (only (fun p => { p with act := if p.fault = 2 then false else p.act }))
    ∧ (s.out.sinceAlert < 8 → exec .alertPeriodic s = .next s)
    ∧ (8 ≤ s.out.sinceAlert → isWorker s = true → s.lnk.ports.length = 6 → ∃ t, exec .alertPeriodic s = .next t
        ∧ t = { s with out := { s.out with sinceAlert := 0 }, lnk := { s.lnk with ports := t.lnk.ports } }
        ∧ ∃ a, a ∈ (getPort t 0).alerts ∧ a.typ = tyAlert ∧ a.dst = 0x1F0 ∧ a.payload = be32 (tripWord s))
    ∧ (∀ (dev : BitVec 9) (r : Remote), remoteOf s dev = some r →
        (remoteLimit s ≤ r.age → ∃ t, exec (.remoteTimeout dev) s = .next t ∧ t = { s with out := { s.out with permits := t.out.permits, entries := t.out.entries } }
          ∧ (∀ e ∈ entriesOf s k, entryDev s e = dev → (getPermit t k).cmd = false ∧ (t.out.entries.getD e {}).clear = 0))
        ∧ (r.age < remoteLimit s → exec (.remoteTimeout dev) s = .next s))

/-- R96, R200 to R203, R391: a lamp's turn-on times are k P/8 after the starts of its periods, where it takes its words and its on-time begins,
P D/4096 rounded, unless the edge waits for a phase that R96 allows, the on-time is 0, or a SHORT keeps it off; a pulse that is still on then is not
shortened; a sink that its limiter has
switched off keeps its on-times without current, and they show OPEN where they do not reach it (that its voltage then shows no SHORT is the
model's choice, log 118); the on-edge to the off-edge is that length, an on-time of at least 5 us is diagnosed at its end and an off-time of at least 5 us at the next period (the
rounding to 80 ns and the reckoning of periods from power-up are the model's choices, log 43); a deferred edge occurs once it may; after 1,024
idle periods a 5 us pulse at the turn-on time, or UNVERIFIED (that this replaces SHORT and OPEN, and that the off-time then shows nothing, are log 112). -/
def Obligations.LampsFollowTheirPeriods : Prop :=
  ∀ (s : State) (k : Fin 8), s.out.lamps.length = 8 →
    let l := getLamp s k
    let now := s.beat.now
    let free := lampEdgeFree s
    let only (f : Lamp → Lamp) : State := { s with out := { s.out with lamps := upd s.out.lamps k f } }
    let mine (t : State) : Prop :=
      t = { s with out := { s.out with lamps := t.out.lamps }, pwr := { s.pwr with irqstat := t.pwr.irqstat } }
      ∧ ∀ j : Fin 8, j ≠ k → getLamp t j = getLamp s j
    let long := l.since + 1000 ≤ now
    let shows (t : State) (x : LampOn) : Prop :=
      (getLamp t k).age = 0 ∧ (getLamp t k).short = (l.short || (x.level == .high && !l.hot))
      ∧ (l.gnded = true ∨ (x.level = .high ∧ l.hot = false) → (getLamp t k).diag = 3)
      ∧ (l.gnded = false → x.reached = false → x.level = .low ∨ l.hot = true → (getLamp t k).diag = 2)
      ∧ (l.gnded = false → x.reached = true → x.level ≠ .high ∨ l.hot = true → (getLamp t k).diag = 0)
      ∧ (l.gnded = false → x.level = .mid → l.hot = false → (getLamp t k).diag = 0)
      ∧ (2 ≤ (getLamp t k).diag.toNat → (getLamp t k).diag ≠ l.diag → t.pwr.irqstat = putBit s.pwr.irqstat 8 true)
    (now < l.next → ∀ (x : LampStart) (on : LampOn), exec (.lampPeriodStart k x on) s = .next s)
    ∧ (l.next ≤ now → ∀ (x : LampStart) (on : LampOn),
        let per := min 62500 (max 500 (stg s 0x4D01).toNat)
        let d := fld (stg s (0x4D10 + k)) 0 12
        let onTime := 16 * ((per * d + 2048) / 4096)
        ∃ t, exec (.lampPeriodStart k x on) s = .next t ∧ mine t
          ∧ (getLamp t k).cur = BitVec.ofNat 6 (min 60 (fld (stg s (0x4D08 + k)) 0 6)) ∧ (getLamp t k).duty.toNat = d ∧ (getLamp t k).per = per
          ∧ (getLamp t k).begun = now ∧ now < (getLamp t k).next ∧ (getLamp t k).next ≤ now + 16 * per ∧ (getLamp t k).next % (16 * per) = 2 * per * k
          ∧ (getLamp t k).hot = (l.hot && !x.cooled)
          ∧ (lampsRun s = false ∨ l.short = true → (getLamp t k).on = false ∧ (getLamp t k).edge = none)
          ∧ (lampsRun s = true → onTime = 0 → l.short = false → l.on = false → (getLamp t k).on = false ∧ (getLamp t k).edge = l.edge)
          ∧ (lampsRun s = true → onTime = 0 → l.short = false → l.on = true → ¬ long ∨ on.level ≠ .high ∨ l.hot = true →
              (now < l.since + l.len → (getLamp t k).on = true ∧ (getLamp t k).edge = l.edge)
              ∧ (l.since + l.len ≤ now → (getLamp t k).on = !free ∧ (getLamp t k).edge = if free then none else some false)
              ∧ (free = false ∨ now < l.since + l.len → (getLamp t k).since = l.since ∧ (getLamp t k).len = l.len))
          ∧ (lampsRun s = true → onTime ≠ 0 → l.on = false → l.short = false →
              (getLamp t k).on = free ∧ (getLamp t k).len = onTime ∧ (getLamp t k).edge = (if free then none else some true)
              ∧ (free = true → (getLamp t k).since = now))
          ∧ (lampsRun s = true → onTime ≠ 0 → l.on = true → l.short = false → ¬ long ∨ on.level ≠ .high ∨ l.hot = true →
              (getLamp t k).on = true ∧ (getLamp t k).edge = none ∧ (getLamp t k).since = l.since ∧ (getLamp t k).len = max l.len (now - l.since + onTime))
          ∧ (lampsRun s = true → l.on = true → long → shows t on)
          ∧ (lampsRun s = true → l.on = false → long → l.dmode = true ∨ l.idle < 1024 →
              (getLamp t k).gnded = x.below ∧ (x.below = true → (getLamp t k).diag = 3)))
    ∧ (∀ x : LampOn,
        (l.on = false ∨ l.duty = 4095 ∨ now < l.since + l.len → exec (.lampOffEdge k x.reached x.level) s = .next s)
        ∧ (l.on = true → l.duty ≠ 4095 → l.since + l.len ≤ now →
          (free = false → exec (.lampOffEdge k x.reached x.level) s = .next (only (fun l => { l with edge := some false })))
          ∧ (free = true → ∃ t, exec (.lampOffEdge k x.reached x.level) s = .next t ∧ mine t ∧ (getLamp t k).on = false ∧ (getLamp t k).since = now
              ∧ (long → shows t x ∧ (getLamp t k).idle = 0)
              ∧ (¬ long → t = only (fun l => { l with on := false, edge := none, since := now })))))
    ∧ (∀ x : LampOn,
        (free = false ∨ l.edge = none → exec (.lampEdgeDeferred k x) s = .next s)
        ∧ (free = true → l.edge = some true →
          (lampsRun s = true ∧ l.short = false →
            exec (.lampEdgeDeferred k x) s = .next (only (fun l => { l with on := true, edge := none, since := now })))
          ∧ (lampsRun s = false ∨ l.short = true → exec (.lampEdgeDeferred k x) s = .next (only (fun l => { l with edge := none }))))
        ∧ (free = true → l.edge = some false → ∃ t, exec (.lampEdgeDeferred k x) s = .next t ∧ mine t
            ∧ (getLamp t k).on = false ∧ (getLamp t k).edge = none ∧ (getLamp t k).since = now ∧ (long → shows t x ∧ (getLamp t k).idle = 0)))
    ∧ ((l.idle < 1024 ∨ lampsRun s = false → ∀ below, exec (.lampDiagPulse k below) s = .next s)
        ∧ (1024 ≤ l.idle → lampsRun s = true → l.dmode = false → ∀ below, exec (.lampDiagPulse k below) s = .next (only (fun l => { l with diag := 1 })))
        ∧ (1024 ≤ l.idle → lampsRun s = true → l.dmode = true → l.cur = 0 ∨ l.short = true ∨ (l.on = true ∧ l.duty = 4095) ∨ now ≠ l.begun →
            ∀ below, exec (.lampDiagPulse k below) s = .next s)
        ∧ (1024 ≤ l.idle → lampsRun s = true → l.dmode = true → l.cur ≠ 0 → l.short = false → now = l.begun →
            ∀ below : Bool,
              (l.on = false → ∃ t, exec (.lampDiagPulse k below) s = .next t ∧ mine t ∧ (getLamp t k).len = 1000
                ∧ (getLamp t k).on = free ∧ (getLamp t k).edge = (if free then none else some true) ∧ (free = true → (getLamp t k).since = now)
                ∧ (long → (getLamp t k).gnded = below ∧ (below = true → (getLamp t k).diag = 3))
                ∧ (¬ long → (getLamp t k).gnded = l.gnded ∧ (getLamp t k).diag = l.diag ∧ t.pwr = s.pwr))
              ∧ (l.on = true → l.duty ≠ 4095 → exec (.lampDiagPulse k below) s = .next (only (fun l => { l with len := max l.len (now - l.since + 1000), edge := none })))))
    ∧ exec (.lampThermalTrip k) s = .next (only (fun l => { l with hot := true }))
    ∧ (lampSinks l = true ↔ l.on = true ∧ l.hot = false)

/-! ### Carud -/

/-- R214 to R224, R229, R232: the instructions that write an operand complete with the result of R223's table, for every form of their
operands that can be reached and read: cost, register updates and result as `finish` and `complete` apply them (what these do is the next
statement). LEA of a node outside its frame gives an address that the manual does not state (log 3), and SZ = D, whose step a LEA would
need, is an illegal size (log 77). -/
def Obligations.DataInstructionsComplete : Prop :=
  ∀ (s : State) (h : IHdr) (d : Opd) (l : Loc), instrRuns s h → destCheck d = none → destLoc s h d = .ok l →
    let answer (len : Nat) (D : Done) : Res := .next (complete s (cycles s.cpu.wrote len D) len D)
    (∀ i f, threeOperand i f → ∀ (s1 s2 : Opd) (a b : W32) (c1 c2 : Ctx), h.sz ≠ 3 → h.x = 0 →
      readOpd s h { s := s } s1 = .ok (a, c1) → readOpd s h c1 s2 = .ok (b, c2) →
      exec (i h d s1 s2) s = answer (lenOf [d, s1, s2]) (finish c2 h [d, s1, s2] l (f h a b)))
    ∧ (∀ i ok f, twoOperand i ok f → ∀ (s1 : Opd) (a : W32) (c1 : Ctx), h.sz ≠ 3 → ok h → readOpd s h { s := s } s1 = .ok (a, c1) →
      exec (i h d s1) s = answer (lenOf [d, s1]) (finish c1 h [d, s1] l (f h a)))
    ∧ (∀ (s1 : Opd) (m : Loc) (v : BitVec 64) (c1 : Ctx), h.sz = 3 → h.x = 0 → isAreg d = false → isAreg s1 = false →
      locate s s1 = .ok m → readD { s := s } m = .ok (v, c1) →
      exec (.mov h d s1) s = answer (lenOf [d, s1]) (finish c1 h [d, s1] l v))
    ∧ (∀ (s1 : Opd) (A : Nat), h.sz ≠ 3 → h.x = 0 → memCheck s1 = none → locate s s1 = .ok (.mem A) →
      exec (.lea h d s1) s = answer (lenOf [d, s1]) (finish { s := s } h [d, s1] l (BitVec.ofNat 64 (A % 2 ^ 32))))
    ∧ (∀ s1 : Opd, h.sz ≠ 3 → h.x = 0 → locate s s1 = .ok .outside →
      ∃ v : W32, exec (.lea h d s1) s = answer (lenOf [d, s1])
        (finish { s := { s with beat := { s.beat with free := s.beat.free + 1 } } } h [d, s1] l (v.setWidth 64)))
    ∧ (∀ s1 : Opd, h.sz = 3 → exec (.lea h d s1) s = .next (faultTake s { v := 1, detail := 3 }))
    ∧ (h.sz ≠ 3 → fld h.x 10 6 = 0 →
      let q := s.cpu.mq.getD (fld h.x 0 2) 0
      let k := fld h.x 2 6
      let x : Int := if h.u then (q.toNat : Int) else q.toInt
      let y : Int := if bit h.x 8 = true ∧ 0 < k then (x + 2 ^ (k - 1)) / 2 ^ k else x / 2 ^ k
      exec (.mqrd h d) s = answer (lenOf [d])
        (finish { s := s } h [d] l (if bit h.x 9 then clampTo (lowest h h.u) (highest h h.u) y else BitVec.ofInt 64 y)))
    ∧ (∀ (s1 : Opd) (a b : W32) (c1 c2 : Ctx), h.sz = 1 ∨ h.sz = 2 → h.x = 0 →
      readLoc { s := s } l { h with u := true } = .ok (a, c1) → readOpd s h c1 s1 = .ok (b, c2) →
      exec (.resid h d s1) s = answer (lenOf [d, s1])
        (finish c2 h [d, s1] l (BitVec.ofNat 64 ((a.toNat + (numberOf h b % 65521).toNat) % 65521))))

/-- R212, R216 to R218, R234: what the three-operand instructions change. An address register as destination takes the result truncated to
SZ, and is zero above it (log 75); memory as destination takes its low bytes, least significant first, and every other byte of memory is unchanged, as all of memory is
where the destination is a register; a destination that is post-incremented advances by its step or by SZ; every other address register,
the predicates and everything outside Carud, memory and time stay. Execution goes on after the instruction, or at the loop's start. -/
def Obligations.ResultsReachTheirDestination : Prop :=
  ∀ i f, threeOperand i f → ∀ (s : State) (h : IHdr) (d s1 s2 : Opd) (l : Loc) (a b : W32) (c1 c2 : Ctx),
    instrRuns s h → h.sz ≠ 3 → h.x = 0 → destCheck d = none → destLoc s h d = .ok l →
    readOpd s h { s := s } s1 = .ok (a, c1) → readOpd s h c1 s2 = .ok (b, c2) →
    (∀ A, l = .mem A → inMemory A) → s.stored = true → s.cpu.a.length = 16 →
    ∃ t, exec (i h d s1 s2) s = .next t
      ∧ carudOnly s t
      ∧ (∀ n, l = .reg n → (areg t n).toNat = (f h a b).toNat % 2 ^ bitsOf h)
      ∧ (∀ A, l = .mem A → ∀ j, j < 2 ^ h.sz.toNat → (rd8 t (A + j)).toNat = (f h a b).toNat / 256 ^ j % 256)
      ∧ (∀ x, (∀ A, l = .mem A → x < A ∨ A + 2 ^ h.sz.toNat ≤ x) → rd8 t x = rd8 s x)
      ∧ (∀ m, l ≠ .reg m → steps d ≠ some m → steps s1 ≠ some m → steps s2 ≠ some m → areg t m = areg s m)
      ∧ (∀ n k, d = .pinc n k → steps s1 ≠ some n → steps s2 ≠ some n →
          areg t n = areg s n + BitVec.ofNat 32 (if k = 0 then 2 ^ h.sz.toNat else k.toNat))
      ∧ (atLoopEnd s.cpu = false → t.cpu.pc = s.cpu.pc + w16 (lenOf [d, s1, s2]) ∧ t.cpu.lpdepth = s.cpu.lpdepth ∧ t.cpu.lpc = s.cpu.lpc)
      ∧ (atLoopEnd s.cpu = true →
          let level := s.cpu.lpdepth - 1
          (1 < (listAt s.cpu.lpc level).toNat → t.cpu.pc = w16 ((listAt s.cpu.lps level).toNat / 4) ∧ t.cpu.lpdepth = s.cpu.lpdepth)
          ∧ ((listAt s.cpu.lpc level).toNat ≤ 1 → t.cpu.pc = s.cpu.pc + w16 (lenOf [d, s1, s2]) ∧ t.cpu.lpdepth = level))
      ∧ (s.cpu.wrote = [] → (plainValue s h s1).isSome = true → (plainValue s h s2).isSome = true →
          t.cpu.cyc = s.cpu.cyc + (if 5 ≤ lenOf [d, s1, s2] then 2 else 1))

/-- R222, R223, R225 to R228, R231: comparisons and PLOG write one predicate and nothing else but the updates of their operands; a write of
P0 is discarded, and a reserved comparison is illegal. MUL and MAC issue an operation that writes MQk four cycles on, so that as many cycles of it
have passed as the instruction took: MUL its product, MAC the 48-bit sum, with MQSTAT where it wraps; a direct write of MQk cancels them. CRCW
feeds its bytes, most significant first. -/
def Obligations.PredicatesAndAccumulatorsFollowTheTable : Prop :=
  (∀ (s : State) (h : IHdr) (s1 s2 : Opd) (a b : W32) (c1 c2 : Ctx), instrRuns s h → h.sz ≠ 3 → s.cpu.a.length = 16 →
    readOpd s h { s := s } s1 = .ok (a, c1) → readOpd s h c1 s2 = .ok (b, c2) →
    let pd := fld h.x 0 3
    let cc := fld h.x 4 3
    let comb := fld h.x 8 2
    let into (r old new : Bool) : Prop :=
      (comb = 0 → new = r) ∧ (comb = 1 → new = (old && r)) ∧ (comb = 2 → new = (old || r)) ∧ (comb = 3 → new = (old && !r))
    let frame (t : State) : Prop :=
      t.cpu.pr ||| (1 <<< pd) = s.cpu.pr ||| (1 <<< pd) ∧ (pd = 0 → t.cpu.pr = s.cpu.pr)
      ∧ carudOnly s { t with cpu := { t.cpu with pr := s.cpu.pr } }
      ∧ (∀ x, rd8 t x = rd8 s x) ∧ (∀ m, steps s1 ≠ some m → steps s2 ≠ some m → areg t m = areg s m)
    (h.x &&& 0xFC88 = 0 → cc ≤ 5 → ∃ t, exec (.cmp h s1 s2) s = .next t ∧ frame t
      ∧ (pd ≠ 0 →
          (cc = 0 → into (decide (a = b)) (predOf s.cpu pd) (predOf t.cpu pd))
          ∧ (cc = 1 → into (decide (a ≠ b)) (predOf s.cpu pd) (predOf t.cpu pd))
          ∧ (cc = 2 → into (decide (numberOf h a < numberOf h b)) (predOf s.cpu pd) (predOf t.cpu pd))
          ∧ (cc = 3 → into (decide (numberOf h a ≤ numberOf h b)) (predOf s.cpu pd) (predOf t.cpu pd))
          ∧ (cc = 4 → into (decide (numberOf h b < numberOf h a)) (predOf s.cpu pd) (predOf t.cpu pd))
          ∧ (cc = 5 → into (decide (numberOf h b ≤ numberOf h a)) (predOf s.cpu pd) (predOf t.cpu pd))))
    ∧ (h.x &&& 0xFC88 = 0 → 6 ≤ cc → exec (.cmp h s1 s2) s = .next (faultTake s { v := 1, detail := 4 }))
    ∧ (h.x &&& 0xFCF8 = 0 → ∃ t, exec (.tst h s1 s2) s = .next t ∧ frame t
      ∧ (pd ≠ 0 → into (decide (a &&& b ≠ 0)) (predOf s.cpu pd) (predOf t.cpu pd)))
    ∧ (fld h.x 2 14 = 0 → s.cpu.flight = [] → ∀ (i : IHdr → Opd → Opd → Instr) (acc : Bool), i = (if acc then .mac else .mul) →
      ∃ t, exec (i h s1 s2) s = .next t ∧ carudOnly s t ∧ (∀ x, rd8 t x = rd8 s x)
        ∧ (∀ m, steps s1 ≠ some m → steps s2 ≠ some m → areg t m = areg s m)
        ∧ (let n := (t.cpu.cyc - s.cpu.cyc).toNat
           let c := mqPass { s.cpu with flight := [⟨fld h.x 0 2, 4, acc, numberOf h a * numberOf h b⟩] } n
           1 ≤ n ∧ t.cpu.mq = c.mq ∧ t.cpu.mqstat = c.mqstat ∧ t.cpu.flight = c.flight))
    ∧ (fld h.x 2 14 = 0 → s.cpu.flight = [] → s.cpu.wrote = [] → (plainValue s h s1).isSome = true → (plainValue s h s2).isSome = true →
      let left := if lenOf [s1, s2] = 5 then 2 else 3
      (∃ t, exec (.mul h s1 s2) s = .next t ∧ carudOnly s t ∧ t.cpu.mq = s.cpu.mq ∧ t.cpu.mqstat = s.cpu.mqstat
        ∧ t.cpu.flight = [⟨fld h.x 0 2, left, false, numberOf h a * numberOf h b⟩])
      ∧ (∃ t, exec (.mac h s1 s2) s = .next t ∧ carudOnly s t ∧ t.cpu.mq = s.cpu.mq ∧ t.cpu.mqstat = s.cpu.mqstat
        ∧ t.cpu.flight = [⟨fld h.x 0 2, left, true, numberOf h a * numberOf h b⟩]))
    ∧ (fld h.x 2 14 = 0 → ∃ t, exec (.crcw h s1) s = .next t
      ∧ t.cpu.crcacc = crcWord s.cpu (fld h.x 0 2) (2 ^ h.sz.toNat) s.cpu.crcacc a
      ∧ carudOnly s { t with cpu := { t.cpu with crcacc := s.cpu.crcacc } } ∧ (∀ x, rd8 t x = rd8 s x)))
  ∧ (∀ (s : State) (h : IHdr), instrRuns s h → h.x &&& 0x0888 = 0 →
      let pa := predOf s.cpu (fld h.x 4 3) != bit h.x 14
      let pb := predOf s.cpu (fld h.x 8 3) != bit h.x 15
      let op := fld h.x 12 2
      ∃ t, exec (.plog h) s = .next t ∧ carudOnly s { t with cpu := { t.cpu with pr := s.cpu.pr } }
        ∧ (∀ k, 1 ≤ k → k < 8 → k ≠ fld h.x 0 3 → predOf t.cpu k = predOf s.cpu k)
        ∧ (fld h.x 0 3 = 0 → t.cpu.pr = s.cpu.pr)
        ∧ (fld h.x 0 3 ≠ 0 → predOf t.cpu (fld h.x 0 3) = if op = 0 then pa && pb else if op = 1 then pa || pb else if op = 2 then pa != pb else pa && !pb))
  ∧ (∀ (c : Carud) (k due n : Nat) (p : Int), c.mq.length = 4 → k < 4 →
      let sum := signed (c.mq.getD k 0).toNat 48 + p
      (n < due → (mqPass { c with flight := [⟨k, due, false, p⟩] } n).mq = c.mq)
      ∧ (due ≤ n → (mqPass { c with flight := [⟨k, due, false, p⟩] } n).mq.getD k 0 = BitVec.ofInt 64 p)
      ∧ (due ≤ n → -2 ^ 47 ≤ sum → sum < 2 ^ 47 →
          (mqPass { c with flight := [⟨k, due, true, p⟩] } n).mq.getD k 0 = BitVec.ofInt 64 sum
          ∧ (mqPass { c with flight := [⟨k, due, true, p⟩] } n).mqstat = c.mqstat)
      ∧ (due ≤ n → sum < -2 ^ 47 ∨ 2 ^ 47 ≤ sum →
          ((mqPass { c with flight := [⟨k, due, true, p⟩] } n).mq.getD k 0).toInt % 2 ^ 48 = sum % 2 ^ 48
          ∧ bit (mqPass { c with flight := [⟨k, due, true, p⟩] } n).mqstat k = true))
  ∧ (∀ (s : State) (k : Fin 4) (v : MqPart), carudActs s = true → s.cpu.mq.length = 4 →
      ∃ q, exec (.mqWrite k v) s = .next { s with cpu := { s.cpu with
          mq := upd s.cpu.mq k (fun _ => q), flight := s.cpu.flight.filter (fun o => o.k != k.val) } }
        ∧ (∀ x, v = .full x → q = x)
        ∧ (∀ x, v = .low x → q.toNat % 2 ^ 32 = x.toNat ∧ q.toNat / 2 ^ 32 = (s.cpu.mq.getD k 0).toNat / 2 ^ 32)
        ∧ (∀ x, v = .high x → q.toNat / 2 ^ 32 = x.toNat ∧ q.toNat % 2 ^ 32 = (s.cpu.mq.getD k 0).toNat % 2 ^ 32))

/-- R223, R233, R234, R238 to R240: branches go to their target, which must lie in program RAM; calls push the address after them; RET and
RESUME pop an entry of their kind, and RESUME restores what the frame holds; LOOP opens a level or goes on after its body; LBRK closes
one. An instruction costs 3 cycles when it branches. The model's choices: LOOP at depth 3 traps even with s = 0 (log 79); a target both
outside and misaligned gives detail 0 (log 70); a CALL in WRAP mode from depth 16 discards one entry (log 80). -/
def Obligations.FlowReachesItsTarget : Prop :=
  ∀ (s : State) (h : IHdr), instrRuns s h → atLoopEnd s.cpu = false → s.cpu.wrote = [] →
    let rel := (4 * (s.cpu.pc.toNat : Int) + 4 * h.x.toInt) % 2 ^ 32
    let goes (t : State) (pc : W16) : Prop :=
      t.cpu.pc = pc ∧ t.cpu.cyc = s.cpu.cyc + 3 ∧ t.mem = s.mem ∧ t.cpu.pr = s.cpu.pr ∧ t.cpu.a = s.cpu.a ∧ t.cpu.lpdepth = s.cpu.lpdepth
      ∧ t.cpu.st = .running
      ∧ t = { s with cpu := t.cpu, beat := { s.beat with clk := t.beat.clk, now := t.beat.now } }
    let there := w16 (rel / 4).toNat
    (rel < 0x40000 → ∃ t, exec (.br h) s = .next t ∧ goes t there ∧ t.cpu.rs = s.cpu.rs)
    ∧ (0x40000 ≤ rel → exec (.br h) s = .next (faultTake s { v := 2, detail := 0, adr := some (BitVec.ofInt 32 rel) }))
    ∧ (rel < 0x40000 → s.cpu.rs.length < 16 → ∃ t, exec (.call h) s = .next t ∧ goes t there
        ∧ t.cpu.rs = (s.cpu.pc + 1).setWidth 32 :: s.cpu.rs)
    ∧ (rel < 0x40000 → 16 ≤ s.cpu.rs.length → s.cpu.rswrap = false → exec (.call h) s = .next (faultTake s { v := 5, detail := 0 }))
    ∧ (rel < 0x40000 → 16 ≤ s.cpu.rs.length → s.cpu.rswrap = true → ∃ t, exec (.call h) s = .next t ∧ goes t there
        ∧ t.cpu.rs = (s.cpu.pc + 1).setWidth 32 :: s.cpu.rs.dropLast)
    ∧ (∀ (src : Opd) (a : W32), plainValue s h src = some a → h.sz ≠ 3 → h.x = 0 →
        (a.toNat < 0x40000 → a.toNat % 4 = 0 →
          (∃ t, exec (.jmp h src) s = .next t ∧ goes t (w16 (a.toNat / 4)) ∧ t.cpu.rs = s.cpu.rs)
          ∧ (s.cpu.rs.length < 16 → ∃ t, exec (.calli h src) s = .next t ∧ goes t (w16 (a.toNat / 4))
              ∧ t.cpu.rs = (s.cpu.pc + w16 (lenOf [src])).setWidth 32 :: s.cpu.rs))
        ∧ (a.toNat < 0x40000 → a.toNat % 4 ≠ 0 →
            exec (.jmp h src) s = .next (faultTake s { v := 2, detail := 1, adr := some a })
            ∧ exec (.calli h src) s = .next (faultTake s { v := 2, detail := 1, adr := some a }))
        ∧ (0x40000 ≤ a.toNat → exec (.jmp h src) s = .next (faultTake s { v := 2, detail := 0, adr := some a })
            ∧ exec (.calli h src) s = .next (faultTake s { v := 2, detail := 0, adr := some a })))
    ∧ (h.x = 0 → s.cpu.rs = [] → exec (.ret h) s = .next (faultTake s { v := 6, detail := 0 })
        ∧ exec (.resume h) s = .next (faultTake s { v := 6, detail := 0 }))
    ∧ (∀ (e : W32) (rest : List W32), h.x = 0 → s.cpu.rs = e :: rest →
        (bit e 16 = false → (∃ t, exec (.ret h) s = .next t ∧ goes t (e.setWidth 16) ∧ t.cpu.rs = rest)
          ∧ exec (.resume h) s = .next (faultTake s { v := 1, detail := 7 }))
        ∧ (bit e 16 = true → exec (.ret h) s = .next (faultTake s { v := 1, detail := 7 })
          ∧ ∃ t, exec (.resume h) s = .next t ∧ t.cpu.pc = e.setWidth 16 ∧ t.cpu.rs = rest ∧ t.cpu.ie = bit e 26
              ∧ t.cpu.pr.toNat = 2 * fld e 17 7 + 1 ∧ t.cpu.lpdepth = fld e 24 2 ∧ t.cpu.a = s.cpu.a ∧ t.mem = s.mem
              ∧ t.cpu.gather = (if bit e 27 then some (BitVec.ofNat 4 (fld e 28 4)) else none) ∧ t.cpu.cyc = s.cpu.cyc + 3))
    ∧ (∀ (src : Opd) (a : W32), plainValue s h src = some a → h.sz ≠ 3 → fld h.x 14 2 = 0 →
        let last := 4 * s.cpu.pc.toNat + 4 * fld h.x 0 14
        (s.cpu.lpdepth < 3 → a ≠ 0 → s.cpu.lps.length = 3 → s.cpu.lpe.length = 3 → s.cpu.lpc.length = 3 →
          ∃ t, exec (.loop h src) s = .next t ∧ t.cpu.lpdepth = s.cpu.lpdepth + 1 ∧ listAt t.cpu.lpc s.cpu.lpdepth = a
            ∧ listAt t.cpu.lps s.cpu.lpdepth = BitVec.ofNat 32 (4 * (s.cpu.pc.toNat + lenOf [src]))
            ∧ listAt t.cpu.lpe s.cpu.lpdepth = BitVec.ofNat 32 last
            ∧ t.cpu.pc = s.cpu.pc + w16 (lenOf [src]) ∧ t.cpu.cyc = s.cpu.cyc + 1 ∧ t.mem = s.mem)
        ∧ (s.cpu.lpdepth < 3 → a = 0 → ∃ t, exec (.loop h src) s = .next t ∧ goes t (w16 (last / 4 + lenAt s last)))
        ∧ (3 ≤ s.cpu.lpdepth → exec (.loop h src) s = .next (faultTake s { v := 7, detail := 0 })))
    ∧ (s.cpu.lpdepth = 0 → exec (.lbrk h) s = .next (faultTake s { v := 7, detail := 1 }))
    ∧ (0 < s.cpu.lpdepth → rel < 0x40000 → ∃ t, exec (.lbrk h) s = .next t ∧ t.cpu.lpdepth = s.cpu.lpdepth - 1 ∧ t.cpu.pc = there
        ∧ t.cpu.cyc = s.cpu.cyc + 3 ∧ t.cpu.a = s.cpu.a ∧ t.cpu.pr = s.cpu.pr ∧ t.mem = s.mem)

/-- R215, R222, R242 to R245, R247: a false guard or a NOP only passes its words in one cycle. A trap pushes the frame, sets TCAUSE and
TADR, clears IE and LPDEPTH and goes to its vector in 4 cycles; a fault at a handler's first instruction, or with no room for the frame,
is a double fault, which fences Carud. The checks of R219 trap before any effect. TRAP is a trap; WAIT waits for an enabled event. The model's
choices: a push in WRAP mode discards one entry (log 80), a misaligned address goes before a fenced bank (log 70), an X that the table does
not use is illegal when it is not 0 (log 77), and a false guard takes one cycle whatever the words (log 78). -/
def Obligations.TrapsEnterTheirVectors : Prop :=
  (∀ (s : State) (v detail : Nat) (adr : Option W32) (ret : W16), v < 16 → detail < 16 →
    (s.cpu.rswrap = true ∨ s.cpu.rs.length < 17 →
      let t := trapTake s v detail adr ret
      let f := t.cpu.rs.headD 0
      t.cpu.pc.toNat = 4 * v ∧ t.cpu.tcause.toNat = v + 16 * detail ∧ t.cpu.tadr = adr.getD s.cpu.tadr ∧ t.cpu.ie = false
      ∧ t.cpu.lpdepth = 0 ∧ t.cpu.lastv.toNat = v ∧ t.cpu.fresh = true ∧ t.cpu.cyc = s.cpu.cyc + 4
      ∧ t.cpu.rs.tail = (if s.cpu.rswrap = true ∧ 16 ≤ s.cpu.rs.length then s.cpu.rs.dropLast else s.cpu.rs)
      ∧ fld f 0 16 = ret.toNat ∧ bit f 16 = true ∧ fld f 17 7 = s.cpu.pr.toNat / 2 ∧ fld f 24 2 = s.cpu.lpdepth % 4 ∧ bit f 26 = s.cpu.ie
      ∧ bit f 27 = s.cpu.gather.isSome
      ∧ t.cpu.a = s.cpu.a ∧ t.cpu.pr = s.cpu.pr ∧ t = { s with cpu := t.cpu, beat := { s.beat with clk := t.beat.clk, now := t.beat.now } })
    ∧ (s.cpu.rswrap = false → 17 ≤ s.cpu.rs.length → trapTake s v detail adr ret = doubleFault s v)
    ∧ (let t := doubleFault s v
       t.cpu.fen = true ∧ t.cpu.st = .dfault ∧ t.cpu.dfcause.toNat = v ∧ t.pwr.irqstat = putBit (putBit s.pwr.irqstat 0 true) 1 true
       ∧ t.flt.logcount = s.flt.logcount + 1 ∧ t.mem = s.mem ∧ t.cpu.a = s.cpu.a ∧ t.pa.isOpen = false))
  ∧ (∀ (s : State) (t : Trap), t.word = none →
      (s.cpu.fresh = true → faultTake s t = doubleFault s t.v)
      ∧ (s.cpu.fresh = false → faultTake s t = trapTake s t.v t.detail t.adr s.cpu.pc))
  ∧ (∀ i f, threeOperand i f → ∀ (s : State) (h : IHdr) (d s1 s2 : Opd), carudActs s = true → eventDue s = false →
      (isNopGuard h = true → exec (i h d s1 s2) s = .next (passOver s 1))
      ∧ (isNopGuard h = false → guardOk s h = false → exec (i h d s1 s2) s = .next (passOver s (lenOf [d, s1, s2])))
      ∧ (instrRuns s h → h.sz = 3 → exec (i h d s1 s2) s = .next (faultTake s { v := 1, detail := 3 }))
      ∧ (instrRuns s h → h.sz ≠ 3 → h.x ≠ 0 → exec (i h d s1 s2) s = .next (faultTake s { v := 1, detail := 4 }))
      ∧ (instrRuns s h → h.sz ≠ 3 → h.x = 0 → (∃ v, d = .imm v) → exec (i h d s1 s2) s = .next (faultTake s { v := 1, detail := 2 }))
      ∧ (∀ A, instrRuns s h → h.sz ≠ 3 → h.x = 0 → destCheck d = none → srcCheck s1 = none → srcCheck s2 = none → locate s d = .ok (.mem A) →
          inMemory A → A % 2 ^ h.sz.toNat ≠ 0 →
          exec (i h d s1 s2) s = .next (faultTake s { v := 2, detail := 1, adr := some (BitVec.ofNat 32 A) })))
  ∧ (∀ (s : State) (len : Nat), s.cpu.wrote = [] → atLoopEnd s.cpu = false →
      let t := passOver s len
      t.cpu.pc = s.cpu.pc + w16 len ∧ t.cpu.cyc = s.cpu.cyc + 1 ∧ t.mem = s.mem ∧ carudOnly s t ∧ t.cpu.a = s.cpu.a ∧ t.cpu.rs = s.cpu.rs)
  ∧ (∀ (s : State) (w : W32), carudActs s = true → eventDue s = false → s.cpu.wrote = [] →
      (fld w 20 4 = 8 → exec (.nop w) s = .next (passOver s 1))
      ∧ (fld w 20 4 ≠ 8 → fld w 24 8 = 0 → exec (.nop w) s = .next (faultTake s { v := 1, detail := 0 })))
  ∧ (∀ (s : State) (h : IHdr), instrRuns s h → atLoopEnd s.cpu = false →
      (fld h.x 4 12 = 0 → exec (.trap h) s = .next (trapTake { s with cpu := { s.cpu with gather := none } } 9 (fld h.x 0 4) none (s.cpu.pc + 1)))
      ∧ (h.x = 0 → evtPending s = false → ∃ t, exec (.wait h) s = .next t ∧ t.cpu.st = .waiting ∧ t.cpu.pc = s.cpu.pc
          ∧ t.cpu.cyc = s.cpu.cyc + 1 ∧ t.mem = s.mem ∧ t.cpu.a = s.cpu.a)
      ∧ (h.x = 0 → evtPending s = true → s.cpu.wrote = [] → ∃ t, exec (.wait h) s = .next t ∧ t.cpu.st = .running ∧ t.cpu.pc = s.cpu.pc + 1
          ∧ t.cpu.cyc = s.cpu.cyc + 1 ∧ t.mem = s.mem ∧ t.cpu.a = s.cpu.a))
  ∧ (∀ s : State, coreRuns s = true → s.cpu.st = .waiting →
      (evtPending s = true → exec .waitRelease s = .next { s with cpu := { s.cpu with
          st := if s.cpu.halt then .halted else .running, pc := s.cpu.pc + 1 } })
      ∧ (evtPending s = false → exec .waitRelease s = .next s))
  ∧ (∀ s : State, carudActs s = true →
      (eventDue s = true → exec (.eventTrap false) s = .next (trapTake s 15 0 none s.cpu.pc)
        ∧ ∃ t, exec (.eventTrap true) s = .next t)
      ∧ (eventDue s = false → ∀ b, exec (.eventTrap b) s = .next s))

/-- R236, R237, R220: a gather of n elements copies, for each k below n, the element that the k-th index names, and leaves every other byte of
memory as it was; an operand that is a node outside its frame gives indices or elements of 0, or takes nothing (the model's reading, log 81). One that is cut after an
element (R257) has copied the elements up to it and waits to be continued, with its operands' updates still to come (log 72). An index
that cannot be read traps with its element's number, to be continued there: a misaligned one with detail 1 in a fenced bank too (log 70), and before
any other fault of the element (log 134), as the model reads the manual. R249 to R254: a user instruction commits its write buffer; one
whose microcode adds its operands writes their sum, zero above SZ (log 75). -/
def Obligations.GathersAndUserInstructionsComplete : Prop :=
  (∀ (s : State) (h : IHdr) (d b i : Opd) (cut : Option (Fin 16)) (D B I : Loc), instrRuns s h → h.sz ≠ 3 → fld h.x 4 12 = 0 → s.cpu.gather = none →
    s.cpu.ie = false ∨ (evtPending s = false ∧ s.cpu.timer = 0) →
    s.stored = true → s.cpu.a.length = 16 →
    memCheck d = none → memCheck b = none → memCheck i = none →
    locate s d = .ok D → locate s b = .ok B → locate s i = .ok I →
    let n := fld h.x 0 4 + 1
    let size := 2 ^ h.sz.toNat
    let index (k : Nat) : Nat := match I with
      | .mem a => (rd16 s (a + 2 * k)).toNat
      | _ => 0
    let from_ (k j : Nat) : Byte := match B with
      | .mem a => rd8 s (a + index k * size + j)
      | _ => 0
    let m := match cut with
      | none => n
      | some c => min n (c.val + 1)
    s.mem.bad = [] → s.mem.granFen = 0 →
    (∀ a, I = .mem a → a % 2 = 0 ∧ ∀ k, k < n → inMemory (a + 2 * k)) →
    (∀ a, B = .mem a → a % size = 0 ∧ ∀ k, k < n → inMemory (a + index k * size)) →
    (∀ a, D = .mem a → a % size = 0 ∧ ∀ k, k < n → inMemory (a + k * size)
      ∧ (∀ c, I = .mem c → c + 2 * k + 2 ≤ a ∨ a + n * size ≤ c + 2 * k)
      ∧ (∀ c, B = .mem c → c + index k * size + size ≤ a ∨ a + n * size ≤ c + index k * size)) →
    ∃ t, exec (.gath ⟨h, cut⟩ d b i) s = .next t
      ∧ (∀ a, D = .mem a → ∀ k j, k < m → j < size → rd8 t (a + k * size + j) = from_ k j)
      ∧ (∀ x, (∀ a, D = .mem a → x < a ∨ a + m * size ≤ x) → rd8 t x = rd8 s x)
      ∧ t.cpu.pr = s.cpu.pr
      ∧ (∀ a, steps d ≠ some a → steps b ≠ some a → steps i ≠ some a → areg t a = areg s a)
      ∧ (m = n → t.cpu.gather = none ∧ (atLoopEnd s.cpu = false → t.cpu.pc = s.cpu.pc + w16 (lenOf [d, b, i])))
      ∧ (m < n → t.cpu.gather = some (BitVec.ofNat 4 m) ∧ t.cpu.pc = s.cpu.pc ∧ ∀ a, areg t a = areg s a))
  ∧ (∀ (s : State) (h : IHdr) (d b i : Opd) (cut : Option (Fin 16)) (D B : Loc) (I : Nat), instrRuns s h → h.sz ≠ 3 → fld h.x 4 12 = 0 →
      s.cpu.gather = none → s.cpu.fresh = false → s.cpu.rswrap = true ∨ s.cpu.rs.length < 17 →
      destCheck d = none → memCheck d = none → memCheck b = none → memCheck i = none →
      locate s d = .ok D → locate s b = .ok B → locate s i = .ok (.mem I) → inMemory I → I % 2 = 1 →
      ∃ t, exec (.gath ⟨h, cut⟩ d b i) s = .next t ∧ t.cpu.pc = 16 ∧ t.cpu.tcause = 0x14 ∧ t.cpu.gfi = 0 ∧ t.cpu.tadr.toNat = I
        ∧ fld (t.cpu.rs.headD 0) 0 16 = s.cpu.pc.toNat ∧ bit (t.cpu.rs.headD 0) 27 = true ∧ t.mem = s.mem ∧ t.cpu.a = s.cpu.a)
  ∧ (∀ (s : State) (u : Fin 16) (h : IHdr) (ops : List Opd) (D : Done), instrRuns s h →
      let e := decodeEntry s u
      bit e 9 = true → ops.length = fld e 10 2 → userCheck h e ops = none → userBody s h e ops = .ok D →
      exec (.userInstruction u h ops) s = .next (complete s (cycles s.cpu.wrote (lenOf ops) D) (lenOf ops) D))
  ∧ (∀ (s : State) (u : Fin 16) (h : IHdr) (n : Fin 16) (s2 s3 : Opd) (a b : W32), instrRuns s h → h.sz ≠ 3 → s.cpu.a.length = 16 →
      plainValue s h s2 = some a → plainValue s h s3 = some b →
      let e := decodeEntry s u
      let w := microEntry s (fld e 0 9)
      bit e 9 = true → fld e 10 2 = 3 → bit e 12 = true → bit e 14 = false → fld e 0 9 < 511 →
      fld w 58 6 = 2 → fld w 55 3 = 0 → fld w 50 5 = 8 → fld w 45 5 = 9 → fld w 40 5 = 10 →
      fld (microEntry s (fld e 0 9 + 1)) 55 9 = 0 →
      ∃ t, exec (.userInstruction u h [.areg n, s2, s3]) s = .next t
        ∧ (areg t n).toNat = (a + b).toNat % 2 ^ bitsOf h ∧ (∀ m, m ≠ n → areg t m = areg s m) ∧ (∀ x, rd8 t x = rd8 s x) ∧ t.cpu.pr = s.cpu.pr)
  ∧ (∀ (s : State) (u : Fin 16) (h : IHdr) (ops : List Opd), instrRuns s h → bit (decodeEntry s u) 9 = false →
      exec (.userInstruction u h ops) s = .next (faultTake s { v := 1, detail := 5 }))

/-- R208, R241, R245, R246, R248, R256, R257: Carud's control register halts, starts and resets it and rings its doorbell; the timer counts
down to its event, and a write of it, also of 0, makes no event (log 135); the return stack is reached from the bottom; CYCLO latches CYCHI;
SCRATCH raises its flag. A HALT waits for an instruction whose PASTART write still waits (R298); one that waits holds Carud's later accesses. -/
def Obligations.ControlTimerAndStackAccesses : Prop :=
  (∀ (s : State) (c : W16 → Instr) (w : W16), c = .carudHalt ∨ c = .carudRun ∨ c = .carudReset ∨ c = .carudDoorbell → spaceOpen s = true →
    let bell (t : State) : State := if bit w 2 then { t with cpu := { t.cpu with evt := putBit t.cpu.evt 6 true } } else t
    (bit w 1 = false → bit w 0 = true → s.cpu.fen = false → s.cpu.st = .running →
      (s.pa.held = none → s.pa.late = [] → exec (c w) s = .next (bell { s with cpu := { s.cpu with halt := true, st := .halted } }))
      ∧ (s.pa.held ≠ none ∨ s.pa.late ≠ [] → exec (c w) s = .next (bell { s with cpu := { s.cpu with halt := true } })))
    ∧ (bit w 1 = false → bit w 0 = true → s.cpu.st = .waiting → exec (c w) s = .next (bell { s with cpu := { s.cpu with halt := true } }))
    ∧ (bit w 1 = false → bit w 0 = false → s.cpu.halt = true → s.cpu.fen = false → s.cpu.st = .halted →
      exec (c w) s = .next (bell { s with cpu := { s.cpu with halt := false, st := .running } }))
    ∧ (bit w 1 = true → s.cpu.fen = false → ∃ t, exec (c w) s = .next t
        ∧ t.cpu.pc = 0 ∧ t.cpu.st = (if bit w 0 then .halted else .running) ∧ t.cpu.pr = 1 ∧ (∀ n, areg t n = 0) ∧ t.cpu.rs = []
        ∧ t.cpu.ie = false ∧ t.cpu.micro = s.cpu.micro ∧ t = { s with cpu := t.cpu, fw := {}, pa := { s.pa with late := [] } })
    ∧ (s.cpu.fen = true → exec (c w) s = .next (bell { s with cpu := { s.cpu with halt := bit w 0 } })))
  ∧ (∀ s : State, coreRuns s = true →
      (s.cpu.timer ≠ 0 → exec .timerExpire s = .next { s with cpu := { s.cpu with timer := 0, timerClk := 0, evt := putBit s.cpu.evt 7 true } })
      ∧ (s.cpu.timer = 0 → exec .timerExpire s = .next s)
      ∧ (∀ n : Nat, s.cpu.timer ≠ 0 → (s.cpu.timerClk + n) / 200 < s.cpu.timer.toNat →
          (timerPass s n).cpu.timer.toNat = s.cpu.timer.toNat - (s.cpu.timerClk + n) / 200 ∧ (timerPass s n).cpu.evt = s.cpu.evt)
      ∧ (∀ n : Nat, s.cpu.timer ≠ 0 → s.cpu.timer.toNat ≤ (s.cpu.timerClk + n) / 200 →
          (timerPass s n).cpu.timer = 0 ∧ (timerPass s n).cpu.evt = putBit s.cpu.evt 7 true))
  ∧ (∀ s : State, coreRuns s = true → s.cpu.st = .running → s.pa.held ≠ none →
      (∀ v : W32, exec (.timerWrite v) s = .next s) ∧ exec .cycloRead s = .next s ∧ ∀ v : W16, exec (.scratchWrite v) s = .next s)
  ∧ (∀ s : State, carudActs s = true →
      (∀ v : W32, exec (.timerWrite v) s = .next { s with cpu := { s.cpu with timer := v.setWidth 24, timerClk := 0 } })
      ∧ exec .rsbotRead s = .next { s with cpu := { s.cpu with rs := s.cpu.rs.dropLast } }
      ∧ (∀ v : W32, s.cpu.rs.length < 16 → exec (.rsbotWrite v) s = .next { s with cpu := { s.cpu with rs := s.cpu.rs ++ [v] } })
      ∧ (∀ v : W32, 16 ≤ s.cpu.rs.length → exec (.rsbotWrite v) s = .next s)
      ∧ exec .cycloRead s = .next { s with cpu := { s.cpu with cychi := BitVec.ofNat 32 (s.cpu.cyc.toNat / 2 ^ 32) } }
      ∧ (∀ v : W16, exec (.scratchWrite v) s = .next { s with pwr := { s.pwr with scratch := v, irqstat := putBit s.pwr.irqstat 13 true } }))

/-! ### Host registers, window, queues -/

/-- R8, R10, R27, R30, R65, R89, R170, R208, R265 to R268, R276, R378: every access of the host port first commits a half word that the
window holds. Reads that latch their companion words, reads that clear a counter, writes. A plain word is staged under its RW bits and reads
back so; it takes force only at a fence. Write-1-to-clear bits clear. HINT_n, while it is supplied, is low while a set bit of IRQSTAT is not
masked. Before RUN a write is ignored and sets BOOTWR, and a read gives 0; a word of CONFIG, AUX or LOG space is UNMAPPED in HOSTLOAD and ASLEEP in
HOLD and DORMANT, where its read gives 0 and its write does nothing. Carud writes SCRATCH and clears AUXSTAT.OVR through its mirrors (the latter by
R170, the model's choice against R208, log 114). -/
def Obligations.RegisterAccessesFollowTheirFields : Prop :=
  (∀ s : State, hostAnswers s = true → inRun s = true → s.pwr.sense ≠ .off →
    let u := settle s
    exec .beatloRead s = .next { u with
      beat := { u.beat with latBeat := u.beat.no, latPhase := phaseNow u }, win := { u.win with hd := u.beat.no.setWidth 16 } }
    ∧ exec .calcntloRead s = .next { u with
      ana := { u.ana with latCnt := (u.ana.calCnt >>> 16).setWidth 16, latBeat := u.ana.calBeat }
      win := { u.win with hd := u.ana.calCnt.setWidth 16 } }
    ∧ (∀ event : Bool,
        exec (.counterClearingRead (.host 0x2E) event) s = .next { u with
          win := { u.win with hd := u.flt.errcnt0 }, flt := { u.flt with errcnt0 := if event then 1 else 0 } }
        ∧ exec (.counterClearingRead (.host 0x2F) event) s = .next { u with
          win := { u.win with hd := u.flt.errcnt1 }, flt := { u.flt with errcnt1 := if event then 1 else 0 } }
        ∧ exec (.counterClearingRead (.host 0x31) event) s = .next { u with
          win := { u.win with hd := u.pwr.wakecause }, pwr := { u.pwr with wakecause := 0 } }
        ∧ exec (.counterClearingRead (.host 0x1D) event) s = exec .beatloRead s
        ∧ exec (.counterClearingRead (.host 0x20) event) s = exec .calcntloRead s))
  ∧ (∀ s : State, hostAnswers s = true → inRun s = false →
      exec .beatloRead s = .next { settle s with win := { (settle s).win with hd := 0 } })
  ∧ (∀ s : State, s.win.held = none → settle s = s)
  ∧ (∀ (s : State) (k : Fin 4), hostAnswers s = true → spaceOpen s = true → (settle s).car.syn.length = 4 →
      let u := settle s
      ∃ t, exec (.synperloRead k) s = .next t
      ∧ t = { u with car := { u.car with syn := t.car.syn }, win := { u.win with hd := w16 (getSyn u k).period } }
      ∧ (getSyn t k).hiLatch.toNat = (getSyn u k).period / 65536 % 256 + 32768 * b2n (getSyn u k).valid)
  ∧ (∀ (s : State) (event : Bool), hostAnswers s = true → spaceOpen s = true →
      let u := settle s
      exec (.counterClearingRead (.config 0x503) event) s = .next { u with
        win := { u.win with hd := u.car.stalecnt }, car := { u.car with stalecnt := if event then 1 else 0 } }
      ∧ exec (.counterClearingRead (.config 0x1503) event) s = .next { u with
        win := { u.win with hd := u.lnk.resendcnt }, lnk := { u.lnk with resendcnt := if event then 1 else 0 } }
      ∧ exec (.counterClearingRead (.aux 4) event) s = .next { u with
        win := { u.win with hd := u.aux.discnt }, aux := { u.aux with discnt := if event then 1 else 0 } }
      ∧ exec (.counterClearingRead (.log 0x200) event) s = .next { u with
        win := { u.win with hd := u.flt.loglost }, flt := { u.flt with loglost := if event then 1 else 0 } })
  ∧ (∀ (s : State) (event : Bool), hostAnswers s = true → spaceOpen s = true →
      let u := settle s
      ∃ t, exec (.counterClearingRead (.config 0x504) event) s = .next t
        ∧ t = { u with win := { u.win with hd := t.win.hd }, car := { u.car with run := t.car.run, noisycnt := if event then 1 else 0 } }
        ∧ (u.car.run = none → t.win.hd = u.car.noisycnt ∧ t.car.run = none)
        ∧ (∀ run, u.car.run = some run → t.car.run = some (runAt u (carClk u) run)
            ∧ t.win.hd = satAdd u.car.noisycnt ((runAt u (carClk u) run).noisy - run.noisy)))
  ∧ (∀ (s : State) (r : RegTarget) (event : Bool) (adr v : W16), r = .config adr ∨ r = .aux adr ∨ r = .log adr →
      let u := settle s
      let read := exec (.counterClearingRead r event) s
      let write := exec (.registerWrite .host r v) s
      let refused (c : BitVec 4) : Prop :=
        read = .next { u with win := { u.win with err := c, errf := true, hd := 0 } } ∧ write = .next { u with win := { u.win with err := c, errf := true } }
      (hostAnswers s = false → read = .next s ∧ write = .next s)
      ∧ (hostAnswers s = true → inRun s = false → s.pwr.boot ≠ .hostload →
          read = .next { s with win := { s.win with hd := 0 } } ∧ write = .next { s with pwr := { s.pwr with bootWr := true } })
      ∧ (hostAnswers s = true → s.pwr.boot = .hostload → refused 1)
      ∧ (hostAnswers s = true → inRun s = true → s.pwr.mode = .hold ∨ s.pwr.mode = .dormant → refused 8))
  ∧ (∀ (s : State) (side : Side) (adr v : W16), (side = .host → hostAnswers s = true ∧ spaceOpen s = true) → (side = .carud → carudActs s = true) →
      let u := if side = .host then settle s else s
      configAct u side adr.toNat v = none → takesForce adr.toNat ≠ .access → accessBits adr.toNat = 0 → u.stored = true →
      ∃ t, exec (.registerWrite side (.config adr) v) s = .next t ∧ t = { u with regs := { u.regs with staged := t.regs.staged } }
        ∧ stg t adr.toNat = v &&& regMask adr.toNat ∧ (∀ k, k ≠ adr.toNat → stg t k = stg u k))
  ∧ (∀ (s : State) (v : W16), hostAnswers s = true → inRun s = true →
      let u := settle s
      exec (.registerWrite .host (.host 0x05) v) s = .next { u with pwr := { u.pwr with irqstat := u.pwr.irqstat &&& ~~~v } }
      ∧ exec (.registerWrite .host (.host 0x06) v) s = .next { u with pwr := { u.pwr with irqmask := v } }
      ∧ exec (.registerWrite .host (.host 0x33) v) s = .next { u with pwr := { u.pwr with scratch := v } }
      ∧ exec (.registerWrite .host (.host 0x02) v) s = .next { u with pwr := { u.pwr with bootWr := u.pwr.bootWr && !(bit v 10) } }
      ∧ exec (.registerWrite .host (.host 0x1C) v) s = .next u)
  ∧ (∀ s : State, hintLow s = true ↔ s.pwr.hostOk = true ∧ ∃ b, b < 16 ∧ bit s.pwr.irqstat b = true ∧ bit s.pwr.irqmask b = false)
  ∧ (∀ (s : State) (v : W16), carudActs s = true → exec (.registerWrite .carud (.host 0x05) v) s = .next s
      ∧ exec (.registerWrite .carud (.host 0x33) v) s = .next { s with pwr := { s.pwr with scratch := v, irqstat := putBit s.pwr.irqstat 13 true } }
      ∧ exec (.registerWrite .carud (.host 0x29) v) s = .next { s with aux := { s.aux with ovr := s.aux.ovr && !(bit v 6) } })
  ∧ (∀ (s : State) (v : W16), hostAnswers s = true → inRun s = false →
      exec (.registerWrite .host (.host 0x05) v) s = .next { settle s with pwr := { (settle s).pwr with bootWr := true } }
      ∧ (s.pwr.boot = .hostload → exec (.registerWrite .host (.host 0x01) v) s = .next (settle s)))
  ∧ (∀ (s : State) (slot : BitVec 6), spaceOpen s = true → s.flt.log.length = 64 → ∃ t, exec (.logEntryRead slot) s = .next t
      ∧ t = { s with flt := { s.flt with log := t.flt.log } }
      ∧ (∀ e, s.flt.log.getD slot.toNat none = some e → t.flt.log.getD slot.toNat none = some { e with read := true })
      ∧ (∀ j, j ≠ slot.toNat → t.flt.log.getD j none = s.flt.log.getD j none))

/-- R255, R274 to R280: the window. CONFIG words read through it; the two halves of a memory word are read together and written together;
an odd half alone is a read-modify-write, which an uncorrectable word refuses, and so is an even half that any other access of the host
port follows; MICRO takes writes while LOCK is 0, the reserved bits of a decode entry with the rest (the model's reading, log 136). A WINDAT write of REMOTE is buffered; a write of WINSEL or REMADR sends what is buffered,
to the device named before it, and drops what was fetched; a fetch or a push sends its request, whatever space WINSEL names (the model's
choice, as are the port toward the peer manager and that a fenced port is no device, log 99), and makes the window busy, where writes of
WINSEL, WINADR, REMADR and WINDAT and a fetch are overflows; two milliseconds without an answer end it. -/
def Obligations.WindowReachesItsSpaces : Prop :=
  ∀ s : State, hostAnswers s = true → inRun s = true → s.pwr.mode = .scan → s.stored = true →
    let sp := fld s.win.sel 13 3
    let page := fld s.win.sel 0 8
    let lin := page * 65536 + s.win.adr.toNat
    let A := memAddr sp lin
    let err (c : BitVec 4) : State := { s with win := { s.win with err := c, errf := true } }
    (s.win.sel = 0 → s.win.held = none → ∃ t, exec .windatRead s = .next t ∧ t.win.hd = configWord s s.win.adr.toNat
        ∧ t.win.adr = s.win.adr + 1 ∧ t.regs = s.regs ∧ t.mem = s.mem)
    ∧ (s.win.busy = false → s.win.held = none → sp = 1 ∨ sp = 2 ∨ sp = 3 → page < spacePages sp → bit s.win.sel 8 = false →
        (lin % 2 = 0 → s.win.latch = none → s.mem.bad.contains (A / 4) = false → ∃ t, exec .windatRead s = .next t
            ∧ t.win.hd = rd16 s A ∧ t.win.latch = some (lin + 1, sp, rd16 s (A + 2)) ∧ t.mem.bytes = s.mem.bytes ∧ t.win.adr = s.win.adr + 1)
        ∧ (∀ v : W16, s.win.latch = some (lin, sp, v) → ∃ t, exec .windatRead s = .next t
            ∧ t.win.hd = v ∧ t.win.latch = none ∧ t.mem = s.mem)
        ∧ (∀ v : W16, lin % 2 = 0 → ∃ t, exec (.windatWrite v) s = .next t
            ∧ t.win.held = some (lin, sp, v) ∧ t.win.latch = none ∧ t.mem = s.mem ∧ t.win.adr = s.win.adr + 1)
        ∧ (∀ v : W16, lin % 2 = 1 → s.mem.bad.contains (A / 4) = false → ∃ t, exec (.windatWrite v) s = .next t
            ∧ rd16 t A = v ∧ (∀ x, x < A ∨ A + 2 ≤ x → rd8 t x = rd8 s x))
        ∧ (∀ v : W16, lin % 2 = 1 → s.mem.bad.contains (A / 4) = true → sp ≠ 1 → ∃ t, exec (.windatWrite v) s = .next t
            ∧ t.win.err = 2 ∧ t.win.errf = true ∧ t.mem = s.mem))
    ∧ (∀ e v : W16, s.win.busy = false → sp = 1 ∨ sp = 2 ∨ sp = 3 → page < spacePages sp → lin % 2 = 1 → s.win.held = some (lin - 1, sp, e) →
        ∃ t, exec (.windatWrite v) s = .next t ∧ rd16 t (A - 2) = e ∧ rd16 t A = v ∧ t.win.held = none
          ∧ t.mem.bad = s.mem.bad.filter (fun w => w != A / 4) ∧ (∀ x, x < A - 2 ∨ A + 2 ≤ x → rd8 t x = rd8 s x))
    ∧ (∀ v : W16, s.win.busy = false → s.win.held = none → sp = 4 → page = 0 → s.win.adr.toNat < 0x820 →
        (s.pwr.lock = false → ∃ t, exec (.windatWrite v) s = .next t
          ∧ (∀ a, sget zero16 t.cpu.micro a = if a = s.win.adr.toNat then v else sget zero16 s.cpu.micro a))
        ∧ (s.pwr.lock = true → ∃ t, exec (.windatWrite v) s = .next t ∧ t.cpu = s.cpu))
    ∧ (sp ≠ 7 → spacePages sp ≤ page → s.win.busy = false → s.win.held = none → ∀ v : W16, ∃ t, exec (.windatWrite v) s = .next t
        ∧ t = { s with win := t.win } ∧ t.win.err = 1 ∧ t.win.errf = true)
    ∧ (∀ v h : W16, ∀ l q : Nat, s.win.held = some (l, q, h) → l < 65536 * spacePages q → s.mem.bad.contains (memAddr q l / 4) = false → l % 2 = 0 → q = 2 ∨ q = 3 →
        s.win.busy = false → s.win.buf = [] →
        ∃ t, exec (.windowSelectWrite false v) s = .next t ∧ t.win.held = none ∧ t.win.sel = v &&& 0xE1FF ∧ rd16 t (memAddr q l) = h
          ∧ (∀ x, x < memAddr q l ∨ memAddr q l + 2 ≤ x → rd8 t x = rd8 s x))
    ∧ (s.win.busy = true → s.win.held = none → ∀ v : W16,
        exec (.windatWrite v) s = .next (err 7) ∧ (∀ r, exec (.windowSelectWrite r v) s = .next (err 7))
        ∧ exec (.registerWrite .host (.host 0x0B) v) s = .next (err 7))
    ∧ (∀ v : W16, s.win.busy = false → s.win.held = none → sp = 7 → isManager s = true → s.win.buf = [] →
        ∃ t, exec (.windatWrite v) s = .next t ∧ t = { s with win := t.win } ∧ t.win.buf = [v] ∧ t.win.bufAdr = lin ∧ t.win.busy = false)
    ∧ (∀ (r : Bool) (v : W16) (k : Fin 6), s.win.busy = false → s.win.held = none → s.win.buf ≠ [] →
        isManager s = true → fld s.win.remadr 0 9 ≠ 0x1FF → noDevice s (remDev s) = false → remPort s (remDev s) = some k.val →
        s.lnk.ports.length = 6 →
        ∃ t, exec (.windowSelectWrite r v) s = .next t ∧ t = { s with win := t.win, lnk := { s.lnk with ports := t.lnk.ports } }
          ∧ t.win.busy = true ∧ t.win.buf = [] ∧ t.win.tag = some (s.win.nextTag, true) ∧ t.win.fetched = [] ∧ t.win.rdy = false
          ∧ t.win.sel = (if r then s.win.sel else v &&& 0xE1FF) ∧ t.win.remadr = (if r then v &&& 0x0FFF else s.win.remadr)
          ∧ (∃ p, (getPort t k).down = (getPort s k).down ++ [p] ∧ p.typ = tyWinreq ∧ p.dst = remDev s
              ∧ p.payload.take 1 = [1] ∧ p.payload.drop 8 = s.win.buf.flatMap be16))
    ∧ (s.win.busy = false → s.win.held = none → s.win.buf = [] → ∀ v : W16,
        exec (.windowSelectWrite false v) s = .next { s with win := { s.win with sel := v &&& 0xE1FF, fetched := [], rdy := false } }
        ∧ exec (.windowSelectWrite true v) s = .next { s with win := { s.win with remadr := v &&& 0x0FFF, fetched := [], rdy := false } })
    ∧ (∀ w : W16, s.win.held = none → bit w 14 = true → bit w 6 = false → bit w 7 = false →
        (s.win.busy = true → exec (.remoteFetch w) s = .next (err 7))
        ∧ (s.win.busy = false → isManager s = true → fld s.win.remadr 0 9 = 0x1FF ∨ noDevice s (remDev s) = true →
            exec (.remoteFetch w) s = .next { s with win := { s.win with fetched := [], rdy := false, err := 3, errf := true } })
        ∧ (∀ k : Fin 6, s.win.busy = false → isManager s = true → fld s.win.remadr 0 9 ≠ 0x1FF → noDevice s (remDev s) = false →
            remPort s (remDev s) = some k.val → s.lnk.ports.length = 6 →
            ∃ t, exec (.remoteFetch w) s = .next t ∧ t = { s with win := t.win, lnk := { s.lnk with ports := t.lnk.ports } }
              ∧ t.win.busy = true ∧ t.win.rdy = false ∧ t.win.tag = some (s.win.nextTag, false) ∧ t.win.nextTag = s.win.nextTag + 1
              ∧ (∃ p, (getPort t k).down = (getPort s k).down ++ [p] ∧ p.typ = tyWinreq ∧ p.dst = remDev s
                  ∧ p.payload.take 1 = [0] ∧ beAt p.payload 3 1 = fld w 8 6 ∧ beAt p.payload 6 2 = s.win.nextTag.toNat)))
    ∧ (∀ (w : W16) (k : Fin 6), s.win.held = none → bit w 7 = true → bit w 6 = false → bit w 14 = false → s.win.busy = false → s.win.buf ≠ [] →
        isManager s = true → fld s.win.remadr 0 9 ≠ 0x1FF → noDevice s (remDev s) = false → remPort s (remDev s) = some k.val →
        s.lnk.ports.length = 6 →
        ∃ t, exec (.remotePush w) s = .next t ∧ t.win.busy = true ∧ t.win.buf = [] ∧ t.win.tag = some (s.win.nextTag, true)
          ∧ (∃ p, (getPort t k).down = (getPort s k).down ++ [p] ∧ p.typ = tyWinreq ∧ p.dst = remDev s
              ∧ p.payload.take 1 = [1] ∧ p.payload.drop 8 = s.win.buf.flatMap be16))
    ∧ (∀ w : W16, bit w 7 = true → bit w 6 = false → bit w 14 = false → s.win.buf = [] → exec (.remotePush w) s = .next (settle s))
    ∧ (s.win.busy = true → exec .windowTimeout s = .next { s with win := { s.win with busy := false, tag := none, err := 4, errf := true } })
    ∧ (s.win.busy = false → exec .windowTimeout s = .next s)

/-- R283, R285, R286, R290 to R298: the queues are read first in, first out; an empty one underruns, an uncorrectable word resets it; FLUSH
waits for a packet boundary and FLUSHNOW does not, and both keep packets handed over that have no word in the queue yet (those handed over
before, the model's choice, log 54); a packet that does not fit is lost and counted; the assembler builds parcels from Carud's words, the last of them
whole or its first byte: a worker's go to the uplink toward the ringmaster, a BULK one once there is room, a manager's into its queue, after what it
writes or has waiting. -/
def Obligations.QueuesAndAssemblerMoveWords : Prop :=
  (∀ (s : State) (bulk : Bool), hostAnswers s = true → inRun s = true → s.pwr.core ≠ .off →
    let u := settle s
    let q := getQueue u bulk
    let with_ (s : State) (q : Queue) : State := setQueue s bulk (fun _ => q)
    (q.words = [] → ∀ found, exec (.queueDataRead ⟨bulk, found⟩) s = .next (with_ { u with win := { u.win with hd := 0 } } { q with underrun := true }))
    ∧ (∀ (x : QWord) (rest : List QWord), q.words = x :: rest →
        let taken : Queue := { q with words := rest, p := (q.p + 1) % (if bulk then 65536 else 16384), pkt := if x.eop then q.pkt - 1 else q.pkt }
        (exec (.queueDataRead ⟨bulk, .none⟩) s = .next (with_ { u with win := { u.win with hd := x.data } } taken))
        ∧ (exec (.queueDataRead ⟨bulk, .single⟩) s =
            .next (with_ { u with win := { u.win with hd := x.data }, flt := { u.flt with errcnt0 := satInc u.flt.errcnt0 } } taken))
        ∧ (∃ t, exec (.queueDataRead ⟨bulk, .double⟩) s = .next t ∧ (getQueue t bulk).words = [] ∧ (getQueue t bulk).qerr = true
            ∧ t.win.hd = 0 ∧ t.pwr.irqstat = putBit u.pwr.irqstat 7 true ∧ t.flt.logcount = u.flt.logcount + 1
            ∧ getQueue t (!bulk) = getQueue u (!bulk)))
    ∧ (∀ (w : W16) (c : Bool → W16 → Instr), c = .queueFlush ∨ c = .queueFlushnow →
        let cleared : Queue := { q with underrun := q.underrun && !(bit w 2), qerr := q.qerr && !(bit w 3) }
        let emptied : Queue := { cleared with words := [], p := q.w, pkt := 0, flush := false }
        (bit w 1 = true → exec (c bulk w) s = .next (with_ u { emptied with writing := [] }))
        ∧ (bit w 1 = false → bit w 0 = true → q.writing = [] → exec (c bulk w) s = .next (with_ u emptied))
        ∧ (bit w 1 = false → bit w 0 = true → q.writing ≠ [] → exec (c bulk w) s = .next (with_ u { cleared with flush := true }))
        ∧ (bit w 1 = false → bit w 0 = false → exec (c bulk w) s = .next (with_ u cleared))))
  ∧ (∀ (s : State) (bulk : Bool), inRun s = true → s.pwr.core = .run →
    let q := getQueue s bulk
    let with_ (s : State) (q : Queue) : State := setQueue s bulk (fun _ => q)
    (q.flush = true → q.writing = [] → exec (.queueFlushEffect bulk) s =
        .next (with_ s { q with words := [], p := q.w, pkt := 0, flush := false }))
    ∧ (q.flush = false ∨ q.writing ≠ [] → exec (.queueFlushEffect bulk) s = .next s)
    ∧ (∀ n : Nat, q.flush = false → q.writing ≠ [] → exec (.queuePacketWrite bulk n) s = .next (with_ s { q with
          words := q.words ++ q.writing.take n, writing := q.writing.drop n
          w := (q.w + (q.writing.take n).length) % (if bulk then 65536 else 16384)
          pkt := q.pkt + ((q.writing.take n).filter (fun x => x.eop)).length }))
    ∧ (∀ (n : Nat) (bytes : List Byte), q.flush = false → q.writing = [] → q.ready = [(.link, bytes)] →
        let ws := packet q.drop bytes
        (q.words.length + ws.length ≤ (if bulk then 32768 else 8192) → ∃ t, exec (.queuePacketWrite bulk n) s = .next t
          ∧ t = with_ s (getQueue t bulk) ∧ (getQueue t bulk).words = q.words ++ ws.take n ∧ (getQueue t bulk).writing = ws.drop n
          ∧ (getQueue t bulk).ready = [] ∧ (getQueue t bulk).drop = 0 ∧ (getQueue t bulk).loss = q.loss)
        ∧ ((if bulk then 32768 else 8192) < q.words.length + ws.length → ∃ t, exec (.queuePacketWrite bulk n) s = .next t
          ∧ t = with_ s (getQueue t bulk) ∧ (getQueue t bulk).words = q.words ∧ (getQueue t bulk).loss = satInc q.loss
          ∧ (getQueue t bulk).drop = min 0x7FFF (q.drop + 1)))
    ∧ (∀ why : QCause, ∃ t, exec (.queueReset bulk why) s = .next t ∧ (getQueue t bulk).words = [] ∧ (getQueue t bulk).w = 0
        ∧ (getQueue t bulk).p = 0 ∧ (getQueue t bulk).pkt = 0 ∧ (getQueue t bulk).qerr = true
        ∧ (getQueue t bulk).drop = min 0x7FFF (q.drop + q.pkt + b2n (!q.writing.isEmpty))
        ∧ t.pwr.irqstat = putBit s.pwr.irqstat 7 true ∧ getQueue t (!bulk) = getQueue s (!bulk)))
  ∧ (∀ (d : Nat) (bytes : List Byte), bytes ≠ [] →
      let ws := packet d bytes
      ws.length = (bytes.length + 3) / 2 ∧ (∀ x, ws.head? = some x → x.data = qhdr d)
      ∧ (∀ (i : Nat) (x : QWord), ws[i]? = some x → (x.eop = true ↔ i + 1 = ws.length) ∧ (x.vb = true ↔ i + 1 = ws.length ∧ bytes.length % 2 = 1)))
  ∧ (∀ (s : State) (v : W16), carudActs s = true →
      let n := min 252 (fld v 0 8)
      (s.pa.ready = false → exec (.pastart v) s = .next { s with pa := { s.pa with held := some v } })
      ∧ (s.pa.ready = true → n ≠ 0 → exec (.pastart v) s = .next { s with pa := { s.pa with
          isOpen := true, abrt := s.pa.abrt || s.pa.isOpen, left := BitVec.ofNat 8 n, len := BitVec.ofNat 8 n, bulk := bit v 8, bytes := [] } })
      ∧ (s.pa.isOpen = false → exec (.padata v) s = .next { s with pa := { s.pa with abrt := true } })
      ∧ (s.pa.isOpen = true → 2 < s.pa.left.toNat → exec (.padata v) s = .next { s with pa := { s.pa with
          bytes := s.pa.bytes ++ be16 v, left := s.pa.left - 2 } })
      ∧ (let built (u : State) (bulk : Bool) (bytes : List Byte) (r : Res) : Prop :=
          let p := mkParcel u (if bulk then tyBulk else tyReport) (ringAddr u) (frameQ u) bytes
          let closed : State := { u with pa := { u.pa with isOpen := false, bytes := [] } }
          let up := uplinkOf u.lnk.ringB
          let q := getQueue u bulk
          let ws := packet q.drop (packetBytes p)
          (isWorker u = true → bulk = false → u.lnk.ports.length = 6 → ∃ t, r = .next t
            ∧ t = { closed with lnk := { u.lnk with ports := t.lnk.ports, mboxovw := t.lnk.mboxovw } }
            ∧ ∃ b, b ∈ (getPort t up).boxes ∧ b.src = ownAddr u ∧ b.parcels.getLast? = some p)
          ∧ (isWorker u = true → bulk = true → (getPort u up).bulk.length < 4 → u.lnk.ports.length = 6 → ∃ t, r = .next t
            ∧ t = { closed with lnk := { u.lnk with ports := t.lnk.ports } } ∧ (getPort t up).bulk = (getPort u up).bulk ++ [p])
          ∧ (isWorker u = true → bulk = true → 4 ≤ (getPort u up).bulk.length →
            r = .next { closed with pa := { closed.pa with ready := false, parcel := some p } })
          ∧ (isWorker u = false → q.writing = [] → q.ready = [] →
            r = .next (setQueue closed bulk (fun q => if (if bulk then 32768 else 8192) < q.words.length + ws.length
              then { q with loss := satInc q.loss, drop := min 0x7FFF (q.drop + 1) } else { q with writing := ws, drop := 0 })))
          ∧ (isWorker u = false → q.writing ≠ [] ∨ q.ready ≠ [] →
            r = .next (setQueue { closed with pa := { closed.pa with ready := false } } bulk (fun q => { q with ready := q.ready ++ [(.assembler, packetBytes p)] })))
        (s.pa.isOpen = true → s.pa.left.toNat ≤ 2 →
          built { s with pa := { s.pa with left := 0 } } s.pa.bulk (s.pa.bytes ++ (be16 v).take s.pa.left.toNat) (exec (.padata v) s))
        ∧ (s.pa.ready = true → n = 0 →
          built { s with pa := { s.pa with abrt := s.pa.abrt || s.pa.isOpen, left := 0, len := 0, bulk := bit v 8 } } (bit v 8) [] (exec (.pastart v) s)))
      ∧ (s.stored = true → ∃ t, exec (.rxrtailWrite v) s = .next t ∧ t = { s with regs := t.regs } ∧ reg t 0x150B = v &&& 0x01FF
          ∧ stg t 0x150B = v &&& 0x01FF ∧ ∀ k, k ≠ 0x150B → reg t k = reg s k ∧ stg t k = stg s k))

/-! ### T-Link and the tree -/

/-- R308 to R314, R326 to R331: a port's checks, and what each accepted parcel of the upward and downward traffic brings about. A CRC failure,
a foreign type and a parcel out of sequence have no further effect; a worker forwards upward parcels to the uplink of their side, and takes no
BULK beyond its buffer of four; a BOOTIMG waits for room on every downlink that forwards it (how much there is, is the implementation's,
log 128); a manager takes what is addressed to it, and the ringmaster's queues every REPORT and BULK (R282). -/
def Obligations.ParcelsAreCheckedAndTaken : Prop :=
  (∀ (c : Fin 6 → RxParcel → Instr) (typ : BitVec 6), rxCommand c typ → ∀ (s : State) (k : Fin 6) (x : RxParcel), lineGood s k x →
    (x.crc ≠ maskedCrc x.p → exec (c k x) s = .next { setPort s k (fun p => { p with windowBad := true, err := satInc p.err }) with
      flt := { s.flt with errcnt1 := satInc s.flt.errcnt1 } })
    ∧ (x.crc = maskedCrc x.p → typeDefined x.p.typ = false → exec (c k x) s = .next { s with lnk := { s.lnk with fwddrop := satInc s.lnk.fwddrop } })
    ∧ (x.crc = maskedCrc x.p → x.p.typ = typ → isSequenced typ = true → ¬ inOrder s k x → exec (c k x) s = .next s))
  ∧ (∀ (s : State) (k : Fin 6) (x : RxParcel), s.lnk.ports.length = 6 → isWorker s = true → isUplink s k = false →
    let up := uplinkOf (sideOf s k)
    (accepted s k x tyReport → ∃ t, exec (.reportRx k x) s = .next t
      ∧ t = { s with lnk := { s.lnk with ports := t.lnk.ports, mboxovw := t.lnk.mboxovw } } ∧ (getPort t k).rxSeq = x.p.linkseq
      ∧ ∃ b ∈ (getPort t up).boxes, b.src = x.p.src ∧ b.frameq = x.p.frameq ∧ b.parcels.getLast? = some x.p)
    ∧ (accepted s k x tyBulk → (getPort s up).bulk.length < 4 → ∃ t, exec (.bulkRx k x) s = .next t
      ∧ t = { s with lnk := { s.lnk with ports := t.lnk.ports } }
      ∧ (getPort t k).rxSeq = x.p.linkseq ∧ (getPort t up).bulk = (getPort s up).bulk ++ [x.p])
    ∧ (accepted s k x tyBulk → 4 ≤ (getPort s up).bulk.length → exec (.bulkRx k x) s = .next s)
    ∧ (accepted s k x tyAlert → ∃ t, exec (.alertRx k x) s = .next t ∧ t = { s with lnk := { s.lnk with ports := t.lnk.ports } }
      ∧ (getPort t up).alerts = (getPort s up).alerts.filter (fun a => a.src != x.p.src) ++ [x.p])
    ∧ (accepted s k x tyFenceack → ∃ t, exec (.fenceackRx k x) s = .next t ∧ t = { s with lnk := { s.lnk with ports := t.lnk.ports } }
      ∧ (getPort t up).pri2 = (getPort s up).pri2 ++ [x.p])
    ∧ (accepted s k x tyWinrsp → ∃ t, exec (.winrspRx k x) s = .next t ∧ t = { s with lnk := { s.lnk with ports := t.lnk.ports } }
      ∧ (getPort t up).winrsp = (getPort s up).winrsp ++ [x.p]))
  ∧ (∀ (s : State) (k : Fin 6) (x : RxParcel), s.lnk.ports.length = 6 → isUplink s k = true →
    (accepted s k x tyFence → isRoot s = false → x.p.dst = 0x1FF → ∃ t, exec (.fenceRx k x) s = .next t
      ∧ t = { s with lnk := { s.lnk with ports := t.lnk.ports, mgr0 := if k.val = 0 ∧ isUplink s 1 = false then x.p.src else s.lnk.mgr0 }
                     beat := { s.beat with fenceWait := some x.p.epoch, done := false } }
      ∧ (∀ d ∈ upDownlinks s (k == 1), (getPort t d).down = (getPort s d).down ++ [x.p]))
    ∧ (accepted s k x tyWinreq → x.p.dst = ownAddr s → x.p.dst ≠ 0 → x.p.dst ≠ 0x1FF → 8 ≤ x.p.payload.length →
      ∃ t, exec (.winreqRx k x) s = .next t
      ∧ ∃ r, (getPort t k).winrsp = (getPort s k).winrsp ++ [r] ∧ r.typ = tyWinrsp ∧ r.dst = x.p.src
        ∧ r.payload.take 2 = (x.p.payload.drop 6).take 2
        ∧ (s.pwr.boot ≠ .run ∨ s.pwr.mode ≠ .scan → (byteAt r.payload 2).toNat = 1 ∧ t.mem = s.mem ∧ t.regs = s.regs))
    ∧ (accepted s k x tyBootimg → imageRoom s k x.p = false → exec (.bootimgRx k x) s = .next s)
    ∧ (accepted s k x tyBootimg → imageRoom s k x.p = true → s.pwr.bootSrc = 0 → x.p.dst = 0x1FF → s.pwr.boot = .load → s.pwr.loaded = false →
      s.stored = true →
      let off := beAt x.p.payload 0 4
      let data := x.p.payload.drop 8
      let len := if off = 0 then beAt data 4 4 else imgLength s
      off = s.lnk.imgGot → 8 ≤ off ∨ (off = 0 ∧ 8 ≤ data.length) → off + data.length < len → off + data.length ≤ 1048576 →
      ∃ t, exec (.bootimgRx k x) s = .next t ∧ t.lnk.imgGot = off + data.length ∧ t.lnk.imgLen = s.lnk.imgLen ∧ t.pwr = s.pwr
        ∧ (∀ i, i < data.length → rd8 t (granBase + off + i) = data.getD i 0)
        ∧ (∀ a, a < granBase + off ∨ granBase + off + data.length ≤ a → rd8 t a = rd8 s a)))
  ∧ (∀ (s : State) (k : Fin 6) (x : RxParcel), s.lnk.ports.length = 6 → isManager s = true →
    (∀ (bulk : Bool) (c : Fin 6 → RxParcel → Instr), c = (if bulk then .bulkRx else .reportRx) → accepted s k x (if bulk then tyBulk else tyReport) →
      let n := rf (reg s) 0x1508 0 9
      let h := s.lnk.head.toNat
      let full := n ≠ 0 ∧ (h + 1) % n = rf (reg s) 0x150B 0 9
      ∃ t, exec (c k x) s = .next t ∧ (getPort t k).rxSeq = x.p.linkseq
          ∧ (x.p.dst = ownAddr s → full → t.lnk.rxloss = satInc s.lnk.rxloss ∧ t.lnk.head = s.lnk.head ∧ t.mem = s.mem)
          ∧ (x.p.dst = ownAddr s → ¬ full → n ≠ 0 → t.lnk.head.toNat = (h + 1) % n ∧ t.lnk.rxloss = s.lnk.rxloss
              ∧ (s.stored = true → rd16 t (dataBase + 16 * rf (reg s) 0x1509 0 13 + 272 * h) = w16 k
                  ∧ rd16 t (dataBase + 16 * rf (reg s) 0x1509 0 13 + 272 * h + 2) = w16 (12 + x.p.len.toNat)
                  ∧ rd8 t (dataBase + 16 * rf (reg s) 0x1509 0 13 + 272 * h + 4) = (headerBytes x.p).headD 0))
          ∧ (x.p.dst ≠ ownAddr s ∨ n = 0 → t.lnk = (takenIn s k x).lnk ∧ t.mem = s.mem)
          ∧ (s.lnk.ring = true → rbit (reg s) 0x1400 (b2n bulk) = true → coreRuns s = true → s.pwr.boot = .run →
              (getQueue t bulk).ready = (getQueue s bulk).ready ++ [(.link, packetBytes x.p)])
          ∧ (s.lnk.ring = false ∨ rbit (reg s) 0x1400 (b2n bulk) = false ∨ coreRuns s = false ∨ s.pwr.boot ≠ .run →
              getQueue t bulk = getQueue s bulk))
    ∧ (accepted s k x tyAlert → ∃ t, exec (.alertRx k x) s = .next t ∧ t = { s with out := t.out }
      ∧ t.out.remotes = s.out.remotes.filter (fun r => r.dev != x.p.src) ++ [⟨x.p.src, BitVec.ofNat 32 (beAt x.p.payload 0 4), 0⟩]
      ∧ t.out.lamps = s.out.lamps)
    ∧ (accepted s k x tyFence → s.lnk.ring = false → isCopy s x.p 0 = false → ∃ t, exec (.fenceRx k x) s = .next t
      ∧ t.beat = { s.beat with fenceWait := some x.p.epoch, done := false } ∧ isCopy t x.p 0 = true)
    ∧ (accepted s k x tyFenceack → s.lnk.ring = true → s.beat.done = false →
      (x.p.epoch = curEpoch s → ∃ t, exec (.fenceackRx k x) s = .next t
        ∧ (∀ m ∈ t.lnk.members, m.addr = x.p.src → m.acked = true) ∧ t.lnk.members.length = s.lnk.members.length
        ∧ (pendOf t = 0 → t.beat.done = true ∧ t.beat.pend = 0 ∧ bit t.pwr.irqstat 4 = true)
        ∧ (pendOf t ≠ 0 → t.beat.done = false ∧ t.beat.pend = pendOf t ∧ t.pwr = s.pwr))
      ∧ (x.p.epoch ≠ curEpoch s → exec (.fenceackRx k x) s = .next (takenIn s k x)))
    ∧ (∀ (tag : W16) (write : Bool), accepted s k x tyWinrsp → x.p.dst = ownAddr s → s.win.tag = some (tag, write) →
      (w16 (beAt x.p.payload 0 2) ≠ tag → exec (.winrspRx k x) s = .next (takenIn s k x))
      ∧ (w16 (beAt x.p.payload 0 2) = tag → ∃ t, exec (.winrspRx k x) s = .next t ∧ t.win.busy = false ∧ t.win.tag = none
          ∧ (write = false → t.win.fetched = wordsOf (x.p.payload.drop 4) ∧ t.win.rdy = !(t.win.fetched.isEmpty))
          ∧ ((byteAt x.p.payload 2).toNat = 0 → t.win.err = s.win.err ∧ t.win.errf = s.win.errf)
          ∧ ((byteAt x.p.payload 2).toNat = 1 → t.win.err = 5 ∧ t.win.errf = true)
          ∧ ((byteAt x.p.payload 2).toNat = 2 → t.win.err = 1 ∧ t.win.errf = true))))

/-- R302 to R306, R313 to R320, R338: windows and training. A GRANT brings the ALERTs, one other parcel and END; END acknowledges and takes
a port from DOWN to TRAIN; an upstream end opens one window at a time, with the BEAT that is due going first and one GRANT after each
parcel; eight windows lost in a row, or no GRANT within the limit, take a port DOWN; sixteen sendings of one parcel, or eight failed
attempts, fence it; the BEAT takes a port from DOWN to TRAIN and with its delay to UP, and the beat number is followed on the beat side. The
limit for a GRANT is 100 us, and 1 ms in WATCH or toward it. In WATCH nothing goes down, new or again, but what R338 lets. The model's readings and
choices: what a downstream end takes for WATCH upstream is its own mode and the TMODE it receives (log 51), a resend that falls due in WATCH waits
(log 110), a BEAT whose field D is 0 brings no delay (log 47), the prediction is the start of the own beat that is nearest (log 117), and one estimate outside does not end the lock (log 46). -/
def Obligations.PortsTrainAndWindowsRun : Prop :=
  ∀ (s : State) (k : Fin 6), s.lnk.ports.length = 6 →
    let p := getPort s k
    let lined (t : State) (l : List LineItem) : Prop := t = { s with lnk := { s.lnk with ports := t.lnk.ports, line := l } }
    (∀ x : RxParcel, accepted s k x tyGrant → isWorker s = true → k.val < 2 → p.beatSeen = true → p.unacked = [] → s.pa.parcel = none →
      x.p.frameq.toNat.testBit 1 = false →
      (p.st = .train → ∃ t, exec (.grantRx k x) s = .next t ∧ lined t [.endMark k p.rxSeq])
      ∧ (p.st = .up → p.beatDue = false → s.pwr.mode ≠ .watch → ∀ y rest, p.pri2 = y :: rest → isSequenced y.typ = true → ∃ t, exec (.grantRx k x) s = .next t
          ∧ lined t (p.alerts.map (LineItem.parcel k) ++ [.parcel k { y with linkseq := nextSeq p.txSeq }, .endMark k p.rxSeq])
          ∧ (getPort t k).pri2 = rest ∧ (getPort t k).alerts = [] ∧ (getPort t k).sentAlerts = p.alerts ∧ (getPort t k).txSeq = nextSeq p.txSeq
          ∧ (getPort t k).unacked = [⟨{ y with linkseq := nextSeq p.txSeq }, 1, false⟩])
      ∧ (p.st = .up → p.beatDue = false → p.pri2 = [] → p.boxes = [] → p.winrsp = [] → p.bulk = [] → ∃ t, exec (.grantRx k x) s = .next t
          ∧ lined t (p.alerts.map (LineItem.parcel k) ++ [.endMark k p.rxSeq])))
    ∧ (∀ (ack inv : Byte) (rt : Nat), linkRuns s = true → downlinkOn s k = true → p.window = true →
      (p.st = .down → ∃ t, exec (.endRx k ack inv rt) s = .next t ∧ (getPort t k).st = .train ∧ (getPort t k).window = false
          ∧ t = { s with lnk := { s.lnk with ports := t.lnk.ports }, pwr := { s.pwr with irqstat := putBit s.pwr.irqstat 11 true } })
      ∧ (p.st = .up → inv ≠ ~~~ack → exec (.endRx k ack inv rt) s = .next (setPort s k (fun p => { p with window := false, lost := 0 })))
      ∧ (p.st = .up → inv = ~~~ack → ∀ pre u post, p.unacked = pre ++ u :: post → u.p.linkseq = ack → (∀ v ∈ pre, v.p.linkseq ≠ ack) →
          (∀ v, post.head? = some v → v.sends < 16) → ∃ t, exec (.endRx k ack inv rt) s = .next t
          ∧ t = { s with lnk := { s.lnk with ports := t.lnk.ports } } ∧ (getPort t k).unacked = post.map (fun v => { v with again := true })
          ∧ (getPort t k).st = .up))
    ∧ (p.window = false → ∀ ack inv rt, exec (.endRx k ack inv rt) s = .next s)
    ∧ (linkRuns s = true → downlinkOn s k = true → p.window = false →
      (p.st = .train ∨ p.st = .up → p.beatDue = false → ∃ t g, exec (.grantSend k) s = .next t ∧ lined t [.parcel k g] ∧ g.typ = tyGrant ∧ g.linkseq = p.rxSeq
          ∧ g.frameq.toNat / 4 = k.val ∧ g.frameq.toNat.testBit 1 = p.windowBad ∧ (getPort t k).window = true ∧ (getPort t k).windowBad = false
          ∧ (getPort t k).owed = false)
      ∧ (p.beatDue = true → exec (.grantSend k) s = .next s)
      ∧ (p.st = .train ∨ p.st = .up → p.beatDue = true → ∃ t, exec (.downwardParcelSend k) s = .next t
          ∧ lined t [.parcel k (beatParcel s k)] ∧ getPort t k = { p with beatDue := false, owed := true })
      ∧ (p.beatDue = false → p.st = .train ∨ p.owed = true → exec (.downwardParcelSend k) s = .next s)
      ∧ (p.st = .up → p.beatDue = false → s.pwr.mode = .watch → (∀ u ∈ p.unacked, u.p.typ ≠ tyHeartbeat ∧ u.p.typ ≠ tyTakeover) →
          (∀ y ∈ p.down, y.typ ≠ tyHeartbeat ∧ y.typ ≠ tyTakeover) → exec (.downwardParcelSend k) s = .next s)
      ∧ (∀ u rest, p.st = .up → p.beatDue = false → p.owed = false → s.pwr.mode ≠ .watch → p.unacked = u :: rest → u.again = true →
          ∃ t, exec (.downwardParcelSend k) s = .next t ∧ lined { t with lnk := { t.lnk with resendcnt := s.lnk.resendcnt } } [.parcel k u.p]
          ∧ t.lnk.resendcnt = satInc s.lnk.resendcnt ∧ (getPort t k).owed = true ∧ (getPort t k).down = p.down)
      ∧ (p.st = .up → p.beatDue = false → p.owed = false → (∀ u ∈ p.unacked, u.again = false) → p.unacked.length < 4 → s.pwr.mode ≠ .watch → s.win.busy = false →
          ∀ y, nextDown p.down = some y → isSequenced y.typ = true → ∃ t, exec (.downwardParcelSend k) s = .next t
          ∧ lined t [.parcel k { y with linkseq := nextSeq p.txSeq }] ∧ (getPort t k).down = p.down.erase y ∧ (getPort t k).owed = true
          ∧ (getPort t k).unacked = p.unacked ++ [⟨{ y with linkseq := nextSeq p.txSeq }, 1, false⟩]))
    ∧ (helloGone s = false ∨ p.st ≠ .down → exec (.downPortBeacon k) s = .next s)
    ∧ (linkRuns s = true → downlinkOn s k = true → helloGone s = true → p.st = .down → ∃ t b g, exec (.downPortBeacon k) s = .next t
      ∧ lined t [.parcel k b, .parcel k g] ∧ b.typ = tyBeat ∧ beAt b.payload 0 4 = s.beat.no.toNat ∧ g.typ = tyGrant ∧ (getPort t k).window = true)
    ∧ (p.window = true →
      (p.lost < 7 → exec (.windowLost k) s = .next (setPort s k (fun p => { p with window := false, lost := p.lost + 1 })))
      ∧ (7 ≤ p.lost → p.st = .up ∨ p.st = .train → ∃ t, exec (.windowLost k) s = .next t ∧ ((getPort t k).st = .down ∨ (getPort t k).st = .fenced)
          ∧ bit t.pwr.irqstat 11 = true ∧ ∀ j : Fin 6, j ≠ k → getPort t j = getPort s j))
    ∧ (p.window = false → exec (.windowLost k) s = .next s)
    ∧ (linkRuns s = true → p.st ≠ .fenced → ∃ t, exec (.collision k) s = .next t
      ∧ t = { s with lnk := { s.lnk with ports := t.lnk.ports, collcnt := satInc s.lnk.collcnt } }
      ∧ (getPort t k).unacked = p.unacked.map (fun u => { u with again := true }) ∧ (getPort t k).window = false)
    ∧ (∀ ns : Nat, isUplink s k = true →
      let slow := s.pwr.mode = .watch ∨ (s.lnk.tmval = true ∧ s.lnk.tmode = 1)
      (ns < 100000 ∨ (slow ∧ ns < 1000000) → exec (.grantTimeout k ns) s = .next s)
      ∧ (1000000 ≤ ns ∨ (¬ slow ∧ 100000 ≤ ns) → p.st = .up ∨ p.st = .train → ∃ t, exec (.grantTimeout k ns) s = .next t ∧ ((getPort t k).st = .down ∨ (getPort t k).st = .fenced)))
    ∧ (p.st ≠ .fenced →
      (∀ u rest, p.unacked = u :: rest → 16 ≤ u.sends → ∃ t, exec (.linkPortFence k .resends) s = .next t ∧ (getPort t k).st = .fenced
        ∧ bit t.pwr.irqstat 0 = true ∧ t.flt.logcount = s.flt.logcount + 1)
      ∧ ((∀ u rest, p.unacked = u :: rest → u.sends < 16) → exec (.linkPortFence k .resends) s = .next s)
      ∧ (8 ≤ p.tries → ∃ t, exec (.linkPortFence k .train) s = .next t ∧ (getPort t k).st = .fenced ∧ bit t.pwr.irqstat 0 = true
        ∧ t.flt.logcount = s.flt.logcount + 1)
      ∧ (p.tries < 8 → exec (.linkPortFence k .train) s = .next s))
    ∧ (∀ (x : RxParcel) (at_ : Int), accepted s k x tyBeat → isWorker s = true → k.val = 0 →
      (p.st = .down → ∃ t, exec (.beatRx k x at_) s = .next t ∧ (getPort t k).st = .train ∧ t.beat = s.beat)
      ∧ (p.st = .train → beAt x.p.payload 12 2 ≠ 0 → beAt x.p.payload 12 2 < 1024 → rbit (reg s) 0x1500 7 = false → ∃ t, exec (.beatRx k x at_) s = .next t
          ∧ (getPort t k).st = .up ∧ (getPort t k).dly.toNat = beAt x.p.payload 12 2 ∧ (getPort t k).txSeq = 0 ∧ (getPort t k).rxSeq = 0)
      ∧ (p.st = .up → s.lnk.beatSeen = 0 → bit (byteAt x.p.payload 7) 3 = true → rbit (reg s) 0x1500 7 = false →
          let e : Int := at_ - beAt x.p.payload 12 2 % 1024 - beAt x.p.payload 4 3
          ∃ t, exec (.beatRx k x at_) s = .next t
          ∧ t.beat = { s.beat with no := BitVec.ofNat 32 (beAt x.p.payload 0 4), lost := false, lock := t.beat.lock, lockRun := t.beat.lockRun }
          ∧ (16 < e.natAbs → e.natAbs ≤ 10 * s.beat.period → t.beat.lockRun = 0 ∧ t.beat.lock = s.beat.lock)
          ∧ (e.natAbs ≤ 16 → e.natAbs ≤ 10 * s.beat.period → 7 ≤ s.beat.lockRun → t.beat.lock = true)
          ∧ t.lnk.beatB = false ∧ t.lnk.ringB = s.lnk.ringB))
    ∧ (isWorker s = true → s.lnk.beatB = false →
      (bit s.lnk.beatSeen 1 = true → ∃ t, exec .beatSideSwitch s = .next t ∧ t.lnk.beatB = true ∧ bit t.lnk.beatSeen 0 = false
          ∧ (s.lnk.ringB = false → t.lnk.ringB = false))
      ∧ (bit s.lnk.beatSeen 1 = false → exec .beatSideSwitch s = .next s))

/-- R16, R273, R321 to R325, R333 to R337, R356: a worker without an address asks for one, takes it and confirms; the ringmaster assigns it
and, when the tree is enumerated and the image is out, enters RUN; the managers watch each other: a ringmaster's HEARTBEAT in the first
three beats of link service makes a manager the standby, none makes manager B the ringmaster, and the standby takes over when the ringmaster
fails (how the three beats are counted is the model's reading, log 53; that a standby counts missed beats from when it becomes one is log
129). A ringmaster whose image is not for broadcast sends none. -/
def Obligations.TreeFormsAndManagersWatch : Prop :=
  (∀ s : State, s.lnk.ports.length = 6 → isWorker s = true → linkRuns s = true → s.lnk.addr = 0 →
    let sent (t : State) : Prop := t = { s with lnk := { s.lnk with ports := t.lnk.ports, helloSent := true } }
      ∧ ∃ h, (getPort t 0).pri2 = (getPort s 0).pri2 ++ [h] ∧ h.typ = tyHello ∧ h.dst = 0x1F0 ∧ payAddr h = 0
    (∀ (g : BitVec 3) (ns : Nat), (getPort s 0).granted = some g → s.lnk.helloSent = false →
      (5000 * g.toNat ≤ ns → ∃ t, exec (.helloSend ns) s = .next t ∧ sent t) ∧ (ns < 5000 * g.toNat → exec (.helloSend ns) s = .next s))
    ∧ (s.lnk.helloSent = true → (∃ t, exec .helloRetry s = .next t ∧ sent t) ∧ ∀ ns, exec (.helloSend ns) s = .next s))
  ∧ (∀ (s : State) (k : Fin 6) (x : RxParcel), s.lnk.ports.length = 6 → accepted s k x tyHello → s.stored = true →
    let a := payAddr x.p
    (isWorker s = true → isUplink s k = false →
      let rt := payRoute x.p + writtenPort s k * 8 ^ s.lnk.depth
      ∃ t q, exec (.helloRx k x) s = .next t ∧ (getPort t (uplinkOf (sideOf s k))).pri2 = (getPort s (uplinkOf (sideOf s k))).pri2 ++ [q]
        ∧ q.typ = tyHello ∧ (rt < 2 ^ 36 → payRoute q = rt) ∧ payAddr q = a
        ∧ (payHops x.p = 0 → s.lnk.depth < 255 → payHops q = s.lnk.depth + 1)
        ∧ (a ≠ 0 → routeOf t (sideOf s k) a = some k.val)
        ∧ (a ≠ 0 → payHops x.p = 0 → ∃ r ∈ t.lnk.routes, r.sideB = sideOf s k ∧ r.addr = a ∧ r.port = k.val ∧ r.near = true))
    ∧ (isManager s = true → s.lnk.ring = true → a = 0 →
      let hops := if payHops x.p = 0 then 1 else payHops x.p
      let rt := payRoute x.p / 8 * 8 + k.val
      (∀ n, assign s rt hops = some n → ∃ t e, exec (.helloRx k x) s = .next t ∧ (getPort t k).down = (getPort s k).down ++ [e]
        ∧ e.typ = tyEnum ∧ (payAddr e).toNat = n ∧ payRoute e = rt ∧ reg t (0x7000 + 4 * n) = w16 rt ∧ rbit (reg t) (0x7002 + 4 * n) 15 = true)
      ∧ (assign s rt hops = none → ∃ t, exec (.helloRx k x) s = .next t ∧ t.flt.logcount = s.flt.logcount + 1 ∧ t.regs = s.regs))
    ∧ (isManager s = true → s.lnk.ring = false → a = 0 → exec (.helloRx k x) s = .next (takenIn s k x))
    ∧ (isManager s = true → s.lnk.ring = true → s.pwr.imgBcast = false → a ≠ 0 → ∃ t, exec (.helloRx k x) s = .next t
      ∧ (∀ j : Fin 6, (getPort t j).down = (getPort s j).down) ∧ t.flt = s.flt ∧ ∃ m ∈ t.lnk.members, m.addr = a ∧ m.port = k.val))
  ∧ (∀ (s : State) (k : Fin 6) (x : RxParcel), s.lnk.ports.length = 6 → accepted s k x tyEnum → isUplink s k = true → s.lnk.addr = 0 →
    (s.pwr.loaded = false → ∃ t h, exec (.enumRx k x) s = .next t ∧ t.lnk.addr = payAddr x.p ∧ t.lnk.depth = payHops x.p ∧ t.pwr = s.pwr
      ∧ (k.val = 0 → isUplink s 1 = false → t.lnk.mgr0 = x.p.src)
      ∧ (getPort t k).pri2 = (getPort s k).pri2 ++ [h] ∧ h.typ = tyHello ∧ h.src = payAddr x.p ∧ payAddr h = payAddr x.p)
    ∧ (s.pwr.loaded = true → s.pwr.boot = .load → s.pwr.reload = false → ∃ t, exec (.enumRx k x) s = .next t ∧ t.lnk.addr = payAddr x.p
      ∧ t.pwr.boot = .run ∧ t.cpu.pc = 0 ∧ bit t.pwr.irqstat 15 = true))
  ∧ (∀ s : State, isManager s = true → (∀ p ∈ s.lnk.ports, p.st ≠ .train) → s.pwr.boot = .tree ∨ s.pwr.boot = .run →
    (s.lnk.ring = false ∨ s.pwr.boot = .run → ∃ t, exec .enumComplete s = .next t
      ∧ t = { s with lnk := { s.lnk with enumerated := true, treecnt := BitVec.ofNat 9 (s.lnk.members.length + 1), treedepth := t.lnk.treedepth } })
    ∧ (s.lnk.ring = true → s.pwr.boot = .tree → s.pwr.imgBcast = false → s.pwr.reload = false → ∃ t, exec .enumComplete s = .next t
      ∧ t.pwr.boot = .run ∧ t.cpu.pc = 0 ∧ t.lnk.enumerated = true)
    ∧ (s.lnk.ring = true → s.pwr.boot = .tree → s.pwr.imgBcast = true → upPorts s ≠ [] → ∃ t, exec .enumComplete s = .next t
      ∧ t.pwr = s.pwr ∧ t.lnk.enumerated = true))
  ∧ (∀ s : State, s.lnk.ring = true → s.pwr.boot = .tree → s.lnk.enumerated = true →
    (imageWaits s = false → s.pwr.reload = false → ∃ t, exec .broadcastComplete s = .next t ∧ t.pwr.boot = .run ∧ t.lnk.bcastDone = true
      ∧ bit t.pwr.irqstat 15 = true)
    ∧ (imageWaits s = true → exec .broadcastComplete s = .next s))
  ∧ (∀ (s : State) (k : Fin 6) (x : RxParcel), s.lnk.ports.length = 6 → isManager s = true →
    (accepted s k x tyHeartbeat → x.p.src = ownAddr s → ∃ t, exec (.heartbeatRx k x) s = .next t ∧ t.lnk.strapDue = true
      ∧ t = { s with lnk := { s.lnk with ports := t.lnk.ports, strapDue := true } })
    ∧ (accepted s k x tyHeartbeat → x.p.src ≠ ownAddr s → isCopy s x.p (BitVec.ofNat 32 (beAt x.p.payload 0 4)) = false → s.lnk.stby = true →
      ∃ t, exec (.heartbeatRx k x) s = .next t ∧ t.lnk.peer = true ∧ t.lnk.sincePeer = 0 ∧ t.lnk.stby = true
        ∧ t.lnk.peerring = bit (byteAt x.p.payload 4) 0 ∧ t.lnk.peerflt = bit (byteAt x.p.payload 4) 1
        ∧ (bit (byteAt x.p.payload 4) 0 = true → t.lnk.miss = 0 ∧ t.lnk.takeoverDue = (s.lnk.takeoverDue || bit (byteAt x.p.payload 4) 1))
        ∧ (bit (byteAt x.p.payload 4) 0 = false → t.lnk.miss = s.lnk.miss ∧ t.lnk.takeoverDue = s.lnk.takeoverDue))
    ∧ (accepted s k x tyHeartbeat → x.p.src ≠ ownAddr s → isCopy s x.p (BitVec.ofNat 32 (beAt x.p.payload 0 4)) = false →
        s.lnk.stby = false → s.lnk.service ≤ 3 →
      ∃ t, exec (.heartbeatRx k x) s = .next t ∧ t.lnk.hbSeen = true ∧ t.lnk.stby = bit (byteAt x.p.payload 4) 0
        ∧ t.lnk.ring = (s.lnk.ring && !(bit (byteAt x.p.payload 4) 0)))
    ∧ (accepted s k x tyTakeover → isCopy s x.p 0 = false → x.p.src ≠ ownAddr s → ∃ t, exec (.takeoverRx k x) s = .next t
      ∧ t.lnk.standbyDue = (s.lnk.standbyDue || s.lnk.ring) ∧ t.pwr = { s.pwr with irqstat := putBit s.pwr.irqstat 12 true }
      ∧ t.flt.logcount = s.flt.logcount + 1 ∧ isCopy t x.p 0 = true))
  ∧ (∀ s : State, s.lnk.ports.length = 6 →
    let ruling (t : State) : Prop := t.lnk.ring = true ∧ t.lnk.stby = false ∧ t.lnk.tkcnt = satInc s.lnk.tkcnt ∧ t.beat.done = true ∧ t.beat.pend = 0
      ∧ t.beat.lost = false
      ∧ t.pwr = { s.pwr with irqstat := putBit (if s.beat.done then s.pwr.irqstat else putBit s.pwr.irqstat 4 true) 12 true } ∧ t.flt.logcount = s.flt.logcount + 1
      ∧ (∀ k ∈ upPorts s, ∃ q, (getPort t k).down = (getPort s k).down ++ [q] ∧ q.typ = tyTakeover ∧ q.dst = 0x1FF ∧ q.payload = be32 s.beat.no)
    (s.lnk.stby = true → selfFault s = false → s.lnk.miss = 3 ∨ s.lnk.takeoverDue = true → ∃ t, exec .takeover s = .next t ∧ ruling t)
    ∧ (s.lnk.stby = false ∨ selfFault s = true ∨ (s.lnk.miss.toNat < 3 ∧ s.lnk.takeoverDue = false) → exec .takeover s = .next s)
    ∧ (s.pwr.role = .managerB → s.lnk.ring = false → s.lnk.stby = false → s.pwr.boot = .tree ∨ s.pwr.boot = .run →
      (s.lnk.hbSeen = false → 4 ≤ s.lnk.service → ∃ t, exec .startupTakeover s = .next t ∧ ruling t)
      ∧ (s.lnk.hbSeen = true ∨ s.lnk.service < 4 → exec .startupTakeover s = .next s))
    ∧ (s.lnk.standbyDue = true → s.pwr.boot ≠ .tree → exec .becomeStandby s = .next { s with
        lnk := { s.lnk with ring := false, stby := true, standbyDue := false, miss := 0 }
        beat := { s.beat with pend := 0, done := s.beat.done || s.beat.fenceWait.isNone }
        pwr := { s.pwr with
          irqstat := putBit (if s.beat.done || s.beat.fenceWait.isSome then s.pwr.irqstat else putBit s.pwr.irqstat 4 true) 12 true } })
    ∧ (s.lnk.standbyDue = false → exec .becomeStandby s = .next s)
    ∧ (s.lnk.strapDue = true → ∃ t, exec .strapConflict s = .next t ∧ t.pwr.boot = .strapflt ∧ t.lnk.ring = false ∧ t.lnk.line = []
        ∧ t.beat.running = false ∧ (∀ k : Fin 4, (getPermit t k).cmd = false)
        ∧ (∀ k : Fin 6, (getPort t k).st = .down ∨ (getPort t k).st = .fenced))
    ∧ (s.lnk.strapDue = false → exec .strapConflict s = .next s))

/-! ### Repair, scrubbing, boundary scan -/

/-- R365, R367 to R369, R377: TEST and UNFENCE and when they are refused or ignored; what each repair test judges; what unfencing restores;
what the scrubber finds. An amplifier keeps the trim that its own test formed, whatever is tested later. The model's choices: TEST of a unit
that is not fenced runs, and one of a unit that does not exist is REFUSED (log 65); a bank's words, and that TRAIN reached UP, are what the
outside says, and a shield's test ends at the boundary after its 64th frame (log 106); a gap that a fenced converter read is failed, and the two
steps of a test of class 2 or 3 may come together, the second in the present gap, or one by one (log 122). EXTEST holds the zones (R401). -/
def Obligations.RepairTestsAndUnfencing : Prop :=
  (∀ (s : State) (c : W16 → Instr) (w : W16), c = .unfenceTest ∨ c = .unfenceCommand → spaceOpen s = true →
    let u : UnitId := ⟨BitVec.ofNat 4 (fld (reg s 0x1700) 0 4), BitVec.ofNat 8 (fld (reg s 0x1700) 4 8)⟩
    let refused : Res := .next { s with flt := { s.flt with res := 3 } }
    (fld w 8 8 ≠ 0x5A ∨ fld w 0 2 = 0 ∨ fld w 0 2 = 3 → exec (c w) s = .next s)
    ∧ (fld w 8 8 = 0x5A → fld w 0 2 = 1 ∨ fld w 0 2 = 2 → s.flt.busy = true → exec (c w) s = .next { s with flt := { s.flt with ign := true } })
    ∧ (fld w 8 8 = 0x5A → s.flt.busy = false →
      (fld w 0 2 = 1 → s.pwr.mode = .scan → unitExists u = true → exec (c w) s = .next { s with flt := { s.flt with
        busy := true, res := 0, tested := some u, ok := false, stale := false, frames := 0, good := true, gap := none } })
      ∧ (fld w 0 2 = 1 → s.pwr.mode ≠ .scan ∨ unitExists u = false → exec (c w) s = refused)
      ∧ (fld w 0 2 = 2 → s.pwr.mode = .scan → isFenced s u = true → s.flt.tested = some u → s.flt.ok = true → s.flt.stale = false →
        exec (c w) s = .next { s with flt := { s.flt with pending := s.flt.pending.filter (fun x => x.1 != u) ++ [(u, s.flt.tau)] } })
      ∧ (fld w 0 2 = 2 → s.pwr.mode ≠ .scan ∨ isFenced s u = false ∨ s.flt.tested ≠ some u ∨ s.flt.ok = false ∨ s.flt.stale = true →
        exec (c w) s = refused)))
  ∧ (∀ (s : State) (cls : Nat) (i : Byte) (cal : List CalReading) (els : List ElMeas) (good : Bool), cls < 16 →
    s.flt.tested = some ⟨BitVec.ofNat 4 cls, i⟩ →
    let ends (pass : Bool) (t : State) : Prop := t.flt.busy = false ∧ t.flt.ok = pass ∧ t.flt.res = if pass then 1 else 2
    let done := exec (.repairTestDone cal els good) s
    let gapOnly (t : State) : Prop := t = { s with flt := t.flt, ana := { s.ana with subs := t.ana.subs }, car := { s.car with lastEnd := t.car.lastEnd } }
    (s.flt.busy = false → done = .next s)
    ∧ (s.flt.busy = true →
      ((cls = 1 ∧ 64 ≤ s.flt.frames) ∨ (cls = 4 ∧ 64 < s.flt.frames) → ∃ t, done = .next t ∧ t = { s with flt := t.flt } ∧ ends s.flt.good t)
      ∧ ((cls = 1 ∧ s.flt.frames < 64) ∨ (cls = 4 ∧ s.flt.frames ≤ 64) → done = .next s)
      ∧ (cls = 2 → testGap s 496 = true → calUpTo s s.car.lastEnd 2 ≤ deadlineAt s →
          let trim := (getAmp s i.toNat).trim
          let read := !(bit s.aux.adcFen (i.toNat / 32))
          (∀ a b rest, s.flt.frames = 0 → cal = a :: b :: rest → ∃ t, done = .next t ∧ gapOnly t ∧ (read = true → t.flt.tau = trimFull trim b)
            ∧ ends (s.flt.good && read && (calAssess trim a).isSome && (calAssess trim b).isSome) t)
          ∧ (∀ a rest, s.flt.frames = 1 → cal = a :: rest → ∃ t, done = .next t ∧ gapOnly t ∧ (read = true → t.flt.tau = trimFull trim a)
            ∧ ends (s.flt.good && read && (calAssess trim a).isSome) t)
          ∧ (∀ a, s.flt.frames = 0 → cal = [a] → ∃ t, done = .next t ∧ gapOnly t ∧ t.flt.busy = true ∧ t.flt.frames = 1
            ∧ t.flt.good = (s.flt.good && read && (calAssess trim a).isSome) ∧ t.flt.gap = some s.beat.no))
      ∧ (cls = 3 → testGap s 1792 = true →
          let read := !(bit s.aux.adcFen (i.toNat / 64))
          (∀ a b rest, s.flt.frames = 0 → els = a :: b :: rest → ∃ t, done = .next t ∧ gapOnly t
            ∧ ends (s.flt.good && read && decide (elVerdict s i.toNat a = 0) && decide (elVerdict s i.toNat b = 0)) t)
          ∧ (∀ a rest, s.flt.frames = 1 → els = a :: rest → ∃ t, done = .next t ∧ gapOnly t
            ∧ ends (s.flt.good && read && decide (elVerdict s i.toNat a = 0)) t))
      ∧ ((cls = 2 ∧ testGap s 496 = false) ∨ (cls = 3 ∧ testGap s 1792 = false) → done = .next s)
      ∧ (cls = 5 → s.stored = true → ∃ t, done = .next t ∧ t = { s with flt := t.flt, mem := t.mem } ∧ ends good t
          ∧ (∀ a, granBase + 65536 * i.toNat ≤ a → a < granBase + 65536 * (i.toNat + 1) → rd8 t a = 0)
          ∧ (∀ a, a < granBase + 65536 * i.toNat ∨ granBase + 65536 * (i.toNat + 1) ≤ a → rd8 t a = rd8 s a))
      ∧ (cls = 6 → ∃ t, done = .next t ∧ t.mem.bytes = s.mem.bytes
          ∧ ((∀ w ∈ s.mem.bad, 0x200000 ≤ 4 * w) → (∀ w ∈ s.mem.soft, 0x200000 ≤ 4 * w) → ends true t ∧ t = { s with flt := t.flt })
          ∧ ((∃ w ∈ s.mem.bad, 4 * w < 0x40000) → ends false t))
      ∧ (cls = 7 → ∃ t, done = .next t ∧ t = { s with flt := t.flt }
          ∧ ends ((passList (reg s) (actProg s)).contains i.toNat
              && (List.range 16).all (fun k => !(bit s.mem.granFen k && inBank (reg s) (actProg s) i.toNat k))) t)
      ∧ (cls = 8 → ∃ t, done = .next t ∧ t = { s with flt := t.flt } ∧ ends good t)
      ∧ (cls = 9 → ∃ t, done = .next t ∧ t = { s with flt := t.flt } ∧ ends (!(s.zon.bad.any (fun w => w / 1024 == i.toNat))) t)))
  ∧ (∀ s : State, s.flt.pending = [] ∨ atBoundary s = false → exec .unfenceApply s = .next s)
  ∧ (∀ s : State, atBoundary s = true → ∃ t, exec .unfenceApply s = .next t ∧ t.flt.pending = []
    ∧ t.flt.logcount = s.flt.logcount + BitVec.ofNat 16 s.flt.pending.length)
  ∧ (∀ (s : State) (cls : Nat) (i : Byte) (tau : Int), cls < 16 → s.flt.pending = [(⟨BitVec.ofNat 4 cls, i⟩, tau)] → atBoundary s = true →
    ∃ t, exec .unfenceApply s = .next t ∧ t.flt.pending = [] ∧ t.flt.ok = s.flt.ok ∧ t.flt.logcount = s.flt.logcount + 1
      ∧ t.regs.staged = s.regs.staged ∧ t.mem.bytes = s.mem.bytes
      ∧ (cls = 1 → t.aux.adcFen = putBit s.aux.adcFen i.toNat false)
      ∧ (cls = 2 → t.ana.ampFen = putBit s.ana.ampFen i.toNat false ∧ (s.ana.amps.length = 128 → i.toNat < 128 → (getAmp t i.toNat).trim = tau))
      ∧ (cls = 3 → t.ana.elFen = putBit s.ana.elFen i.toNat false ∧ (s.ana.verdict.length = 256 → t.ana.verdict.getD i.toNat 0 = 0))
      ∧ (cls = 4 → t.ana.shdFen = putBit s.ana.shdFen i.toNat false)
      ∧ (cls = 5 → t.mem.granFen = putBit s.mem.granFen i.toNat false)
      ∧ (cls = 6 → t.cpu = { s.cpu with fen := false, st := .halted })
      ∧ (cls = 7 → i.toNat < 16 → s.car.passes.length = 16 → (getPass t i.toNat).pipeFen = false
          ∧ (getPass t i.toNat).seat = (if (getPass s i.toNat).pipe.isSome then 33 else 32)
          ∧ (getPass t i.toNat).bvalid = false)
      ∧ (cls = 8 → i.toNat < 6 → s.lnk.ports.length = 6 → (getPort t i.toNat).st = .down ∧ (getPort t i.toNat).downs = [])
      ∧ (cls = 9 → i.toNat < 32 → s.zon.zones.length = 32 → (getZone t i.toNat).fen = false))
  ∧ (∀ (s : State) (a : W32), coreRuns s = true → inMemory a.toNat → s.mem.bad.contains (a.toNat / 4) = false →
    (exec (.scrubAccess (.mem a) .single) s = .next { s with
        mem := { s.mem with soft := s.mem.soft.filter (fun x => x != a.toNat / 4) }, flt := { s.flt with errcnt0 := satInc s.flt.errcnt0 } })
    ∧ (s.mem.soft.contains (a.toNat / 4) = false → exec (.scrubAccess (.mem a) .none) s = .next s)
    ∧ (∃ t, exec (.scrubAccess (.mem a) .double) s = .next t ∧ t.mem.bad.contains (a.toNat / 4) = true
        ∧ t.flt.errcnt0 = s.flt.errcnt0
        ∧ (a.toNat < 0x200000 → t = { s with mem := t.mem, flt := t.flt } ∧ t.mem.bytes = s.mem.bytes ∧ t.flt.logcount = s.flt.logcount + 1)
        ∧ (0x200000 ≤ a.toNat → bit t.mem.granFen ((a.toNat - 0x200000) / 65536) = true
            ∧ (bit s.mem.granFen ((a.toNat - 0x200000) / 65536) = false → bit t.pwr.irqstat 0 = true))))
  ∧ (∀ (s : State) (w : BitVec 15), senseRuns s = true → s.zon.bad.contains w.toNat = false → s.zon.zones.length = 32 →
    exec (.scrubAccess (.zone w) .none) s = .next s
    ∧ exec (.scrubAccess (.zone w) .single) s = .next { s with flt := { s.flt with errcnt0 := satInc s.flt.errcnt0 } }
    ∧ (∃ t, exec (.scrubAccess (.zone w) .double) s = .next t ∧ t.zon.bad.contains w.toNat = true ∧ t.zon.sram = s.zon.sram
        ∧ (zoneUsesWord s w.toNat = true → s.jtag.ir ≠ .extest → (getZone t (w.toNat / 1024)).fen = true)
        ∧ (s.jtag.ir = .extest → t.zon.zones = s.zon.zones)
        ∧ (zoneUsesWord s w.toNat = false → t.zon.zones = s.zon.zones ∧ t.flt.logcount = s.flt.logcount + 1)))

/-- R401, R388: the boundary-scan instructions, none of which acts in power-on reset. IDCODE, BYPASS and SAMPLE/PRELOAD change nothing but the
JTAG registers; SAMPLE captures the balls; EXTEST turns every permit that it does not drive OFF, holds the carousel where it then stands, and the zone
unit and the permit logic with it, and without VDDIO_H no cell drives a host ball (R387); leaving it, by whichever instruction, resets the device as RESET_n does, AONSCR kept (log 69), as are the cells (log 73). -/
def Obligations.BoundaryScanHoldsAndResets : Prop :=
  ∀ s : State,
    (s.pwr.powered = false → (∀ x : ScanIn, exec (.jtagSamplePreload x) s = .next s) ∧ exec .jtagExtest s = .next s ∧ exec .jtagBypass s = .next s
      ∧ exec .jtagIdcode s = .next s ∧ (∀ k, scanDrives s k = false) ∧ scanHost s = false)
    ∧ (s.pwr.powered = true →
    (s.jtag.ir ≠ .extest →
      exec .jtagBypass s = .next { s with jtag := { s.jtag with ir := .bypass, dr := 0 } }
      ∧ exec .jtagIdcode s = .next { s with jtag := { s.jtag with ir := .idcode, dr := 0x2E480A57 } }
      ∧ (∀ x : ScanIn, ∃ t, exec (.jtagSamplePreload x) s = .next t ∧ t = { s with jtag := { s.jtag with ir := .sample, cells := x.cells, sampled := t.jtag.sampled } }
          ∧ t.jtag.sampled = { x.balls with host := t.jtag.sampled.host, prm := t.jtag.sampled.prm }
          ∧ (∀ k : Fin 4, bit t.jtag.sampled.prm k = (getPermit s k).out)
          ∧ bit t.jtag.sampled.host 4 = (bit x.balls.host 4 && !(hintLow s)) ∧ (∀ j, j < 4 → bit t.jtag.sampled.host j = bit x.balls.host j))
      ∧ exec .jtagExtestExit s = .next s)
    ∧ (∃ t, exec .jtagExtest s = .next t ∧ (∀ k : Fin 4, (getPermit t k).cmd = false)
        ∧ t = { s with jtag := t.jtag, out := { s.out with permits := t.out.permits }, car := { s.car with run := t.car.run, noisycnt := t.car.noisycnt } }
        ∧ carClk t = carClk s
        ∧ (s.jtag.ir = .extest → t.jtag = s.jtag ∧ t.car = s.car)
        ∧ (s.jtag.ir ≠ .extest → t.jtag = { s.jtag with ir := .extest, heldClk := s.beat.clk } ∧ t.car = (runPresent s).car))
    ∧ (s.jtag.ir = .extest →
      (∀ z : Fin 32, exec (.zoneTrip z) s = .next s ∧ exec (.zoneRelease z) s = .next s)
      ∧ (∀ k : Fin 4, exec (.permitOn k) s = .next s)
      ∧ (∀ (p : Fin 16) (at_ g : Nat) (q : GroupInput), exec (.passStart p at_) s = .next s ∧ exec (.groupStart p g at_ q) s = .next s)
      ∧ exec .quietHoldEnd s = .next s ∧ exec .noisyCompletion s = .next s ∧ exec .deadlineReached s = .next s
      ∧ (∀ (k : Fin 4) (a b : Bool), exec (.synEdge k a b) s = .next s ∧ exec (.synTimeout k) s = .next s)
      ∧ (s.pwr.hostOk = false → hdBall s = none ∧ hwaitBall s = none ∧ hintBall s = false ∧ scanHost s = false)
      ∧ (∀ c : Instr, c = .jtagExtestExit ∨ c = .jtagBypass ∨ c = .jtagIdcode → ∃ t, exec c s = .next t ∧ t.pwr.boot = .reset
          ∧ t.pwr.aonscr = s.pwr.aonscr ∧ t.regs = State.reset.regs ∧ t.mem = State.reset.mem ∧ t.jtag.cells = s.jtag.cells
          ∧ t.jtag.ir ≠ .extest ∧ t.pending = s.pending ∧ (∀ k : Fin 4, (getPermit t k).cmd = false))
      ∧ (∀ x : ScanIn, ∃ t, exec (.jtagSamplePreload x) s = .next t ∧ t.pwr.boot = .reset ∧ t.pwr.aonscr = s.pwr.aonscr
          ∧ t.regs = State.reset.regs ∧ t.mem = State.reset.mem ∧ t.jtag.ir = .sample ∧ t.jtag.cells = x.cells
          ∧ t.pending = s.pending ∧ (∀ k : Fin 4, (getPermit t k).cmd = false))))

/-! ### Invariants of every step -/

/-- R206, R179, R249, R364 (the model's own form, log 6): every step keeps every storage in its canonical form, so that equal contents are equal
data: the memories, the zone SRAM, MICRO, AONSCR, and the register words staged and in force. -/
def Obligations.EveryStepKeepsStorageCanonical : Prop :=
  ∀ s t : State, s.stored = true → step s = .next t → t.stored = true

/-- R37, R192, R193, R401: from every state in which each permit that is commanded ON meets R37, every step leads to such a state: whatever the
command does, it turns ON no permit outside R37 and leaves none ON outside it; and reset is such a state. -/
def Obligations.PermitsStayUnderTheirConditions : Prop :=
  permitsHeld State.reset ∧ ∀ s t : State, permitsHeld s → step s = .next t → permitsHeld t

/-- Log 1: every command answers a next state in every state, and none but a step takes a command from the queue or puts one there. -/
def Obligations.EveryCommandAnswersAndLeavesTheQueue : Prop :=
  ∀ (c : Instr) (s : State), ∃ t, exec c s = .next t ∧ t.pending = s.pending
end

