-- ==== Sys2Proof/Laws/State.lean ====
section
/-! SUPPORT. Beside State: one lemma per component of State and named operation, saying that the operation leaves it alone, and one
per operation saying what reading back gives. -/
namespace Sys2Proof.Machine

/-! setPass -/
@[simp] theorem setPass_pwr (s : State) (p : Nat) (f : Pass → Pass) : (setPass s p f).pwr = s.pwr := rfl
@[simp] theorem setPass_beat (s : State) (p : Nat) (f : Pass → Pass) : (setPass s p f).beat = s.beat := rfl
@[simp] theorem setPass_regs (s : State) (p : Nat) (f : Pass → Pass) : (setPass s p f).regs = s.regs := rfl
@[simp] theorem setPass_ana (s : State) (p : Nat) (f : Pass → Pass) : (setPass s p f).ana = s.ana := rfl
@[simp] theorem setPass_aux (s : State) (p : Nat) (f : Pass → Pass) : (setPass s p f).aux = s.aux := rfl
@[simp] theorem setPass_zon (s : State) (p : Nat) (f : Pass → Pass) : (setPass s p f).zon = s.zon := rfl
@[simp] theorem setPass_out (s : State) (p : Nat) (f : Pass → Pass) : (setPass s p f).out = s.out := rfl
@[simp] theorem setPass_cpu (s : State) (p : Nat) (f : Pass → Pass) : (setPass s p f).cpu = s.cpu := rfl
@[simp] theorem setPass_mem (s : State) (p : Nat) (f : Pass → Pass) : (setPass s p f).mem = s.mem := rfl
@[simp] theorem setPass_win (s : State) (p : Nat) (f : Pass → Pass) : (setPass s p f).win = s.win := rfl
@[simp] theorem setPass_rq (s : State) (p : Nat) (f : Pass → Pass) : (setPass s p f).rq = s.rq := rfl
@[simp] theorem setPass_bq (s : State) (p : Nat) (f : Pass → Pass) : (setPass s p f).bq = s.bq := rfl
@[simp] theorem setPass_pa (s : State) (p : Nat) (f : Pass → Pass) : (setPass s p f).pa = s.pa := rfl
@[simp] theorem setPass_lnk (s : State) (p : Nat) (f : Pass → Pass) : (setPass s p f).lnk = s.lnk := rfl
@[simp] theorem setPass_flt (s : State) (p : Nat) (f : Pass → Pass) : (setPass s p f).flt = s.flt := rfl
@[simp] theorem setPass_jtag (s : State) (p : Nat) (f : Pass → Pass) : (setPass s p f).jtag = s.jtag := rfl
@[simp] theorem setPass_fw (s : State) (p : Nat) (f : Pass → Pass) : (setPass s p f).fw = s.fw := rfl
@[simp] theorem setPass_pending (s : State) (p : Nat) (f : Pass → Pass) : (setPass s p f).pending = s.pending := rfl

/-! allPasses -/
@[simp] theorem allPasses_pwr (s : State) (f : Pass → Pass) : (allPasses s f).pwr = s.pwr := rfl
@[simp] theorem allPasses_beat (s : State) (f : Pass → Pass) : (allPasses s f).beat = s.beat := rfl
@[simp] theorem allPasses_regs (s : State) (f : Pass → Pass) : (allPasses s f).regs = s.regs := rfl
@[simp] theorem allPasses_ana (s : State) (f : Pass → Pass) : (allPasses s f).ana = s.ana := rfl
@[simp] theorem allPasses_aux (s : State) (f : Pass → Pass) : (allPasses s f).aux = s.aux := rfl
@[simp] theorem allPasses_zon (s : State) (f : Pass → Pass) : (allPasses s f).zon = s.zon := rfl
@[simp] theorem allPasses_out (s : State) (f : Pass → Pass) : (allPasses s f).out = s.out := rfl
@[simp] theorem allPasses_cpu (s : State) (f : Pass → Pass) : (allPasses s f).cpu = s.cpu := rfl
@[simp] theorem allPasses_mem (s : State) (f : Pass → Pass) : (allPasses s f).mem = s.mem := rfl
@[simp] theorem allPasses_win (s : State) (f : Pass → Pass) : (allPasses s f).win = s.win := rfl
@[simp] theorem allPasses_rq (s : State) (f : Pass → Pass) : (allPasses s f).rq = s.rq := rfl
@[simp] theorem allPasses_bq (s : State) (f : Pass → Pass) : (allPasses s f).bq = s.bq := rfl
@[simp] theorem allPasses_pa (s : State) (f : Pass → Pass) : (allPasses s f).pa = s.pa := rfl
@[simp] theorem allPasses_lnk (s : State) (f : Pass → Pass) : (allPasses s f).lnk = s.lnk := rfl
@[simp] theorem allPasses_flt (s : State) (f : Pass → Pass) : (allPasses s f).flt = s.flt := rfl
@[simp] theorem allPasses_jtag (s : State) (f : Pass → Pass) : (allPasses s f).jtag = s.jtag := rfl
@[simp] theorem allPasses_fw (s : State) (f : Pass → Pass) : (allPasses s f).fw = s.fw := rfl
@[simp] theorem allPasses_pending (s : State) (f : Pass → Pass) : (allPasses s f).pending = s.pending := rfl

/-! setSyn -/
@[simp] theorem setSyn_pwr (s : State) (k : Nat) (f : Syn → Syn) : (setSyn s k f).pwr = s.pwr := rfl
@[simp] theorem setSyn_beat (s : State) (k : Nat) (f : Syn → Syn) : (setSyn s k f).beat = s.beat := rfl
@[simp] theorem setSyn_regs (s : State) (k : Nat) (f : Syn → Syn) : (setSyn s k f).regs = s.regs := rfl
@[simp] theorem setSyn_ana (s : State) (k : Nat) (f : Syn → Syn) : (setSyn s k f).ana = s.ana := rfl
@[simp] theorem setSyn_aux (s : State) (k : Nat) (f : Syn → Syn) : (setSyn s k f).aux = s.aux := rfl
@[simp] theorem setSyn_zon (s : State) (k : Nat) (f : Syn → Syn) : (setSyn s k f).zon = s.zon := rfl
@[simp] theorem setSyn_out (s : State) (k : Nat) (f : Syn → Syn) : (setSyn s k f).out = s.out := rfl
@[simp] theorem setSyn_cpu (s : State) (k : Nat) (f : Syn → Syn) : (setSyn s k f).cpu = s.cpu := rfl
@[simp] theorem setSyn_mem (s : State) (k : Nat) (f : Syn → Syn) : (setSyn s k f).mem = s.mem := rfl
@[simp] theorem setSyn_win (s : State) (k : Nat) (f : Syn → Syn) : (setSyn s k f).win = s.win := rfl
@[simp] theorem setSyn_rq (s : State) (k : Nat) (f : Syn → Syn) : (setSyn s k f).rq = s.rq := rfl
@[simp] theorem setSyn_bq (s : State) (k : Nat) (f : Syn → Syn) : (setSyn s k f).bq = s.bq := rfl
@[simp] theorem setSyn_pa (s : State) (k : Nat) (f : Syn → Syn) : (setSyn s k f).pa = s.pa := rfl
@[simp] theorem setSyn_lnk (s : State) (k : Nat) (f : Syn → Syn) : (setSyn s k f).lnk = s.lnk := rfl
@[simp] theorem setSyn_flt (s : State) (k : Nat) (f : Syn → Syn) : (setSyn s k f).flt = s.flt := rfl
@[simp] theorem setSyn_jtag (s : State) (k : Nat) (f : Syn → Syn) : (setSyn s k f).jtag = s.jtag := rfl
@[simp] theorem setSyn_fw (s : State) (k : Nat) (f : Syn → Syn) : (setSyn s k f).fw = s.fw := rfl
@[simp] theorem setSyn_pending (s : State) (k : Nat) (f : Syn → Syn) : (setSyn s k f).pending = s.pending := rfl

/-! setZone -/
@[simp] theorem setZone_pwr (s : State) (z : Nat) (f : Zone → Zone) : (setZone s z f).pwr = s.pwr := rfl
@[simp] theorem setZone_beat (s : State) (z : Nat) (f : Zone → Zone) : (setZone s z f).beat = s.beat := rfl
@[simp] theorem setZone_regs (s : State) (z : Nat) (f : Zone → Zone) : (setZone s z f).regs = s.regs := rfl
@[simp] theorem setZone_ana (s : State) (z : Nat) (f : Zone → Zone) : (setZone s z f).ana = s.ana := rfl
@[simp] theorem setZone_car (s : State) (z : Nat) (f : Zone → Zone) : (setZone s z f).car = s.car := rfl
@[simp] theorem setZone_aux (s : State) (z : Nat) (f : Zone → Zone) : (setZone s z f).aux = s.aux := rfl
@[simp] theorem setZone_out (s : State) (z : Nat) (f : Zone → Zone) : (setZone s z f).out = s.out := rfl
@[simp] theorem setZone_cpu (s : State) (z : Nat) (f : Zone → Zone) : (setZone s z f).cpu = s.cpu := rfl
@[simp] theorem setZone_mem (s : State) (z : Nat) (f : Zone → Zone) : (setZone s z f).mem = s.mem := rfl
@[simp] theorem setZone_win (s : State) (z : Nat) (f : Zone → Zone) : (setZone s z f).win = s.win := rfl
@[simp] theorem setZone_rq (s : State) (z : Nat) (f : Zone → Zone) : (setZone s z f).rq = s.rq := rfl
@[simp] theorem setZone_bq (s : State) (z : Nat) (f : Zone → Zone) : (setZone s z f).bq = s.bq := rfl
@[simp] theorem setZone_pa (s : State) (z : Nat) (f : Zone → Zone) : (setZone s z f).pa = s.pa := rfl
@[simp] theorem setZone_lnk (s : State) (z : Nat) (f : Zone → Zone) : (setZone s z f).lnk = s.lnk := rfl
@[simp] theorem setZone_flt (s : State) (z : Nat) (f : Zone → Zone) : (setZone s z f).flt = s.flt := rfl
@[simp] theorem setZone_jtag (s : State) (z : Nat) (f : Zone → Zone) : (setZone s z f).jtag = s.jtag := rfl
@[simp] theorem setZone_fw (s : State) (z : Nat) (f : Zone → Zone) : (setZone s z f).fw = s.fw := rfl
@[simp] theorem setZone_pending (s : State) (z : Nat) (f : Zone → Zone) : (setZone s z f).pending = s.pending := rfl

/-! setPermit -/
@[simp] theorem setPermit_pwr (s : State) (k : Nat) (f : Permit → Permit) : (setPermit s k f).pwr = s.pwr := rfl
@[simp] theorem setPermit_beat (s : State) (k : Nat) (f : Permit → Permit) : (setPermit s k f).beat = s.beat := rfl
@[simp] theorem setPermit_regs (s : State) (k : Nat) (f : Permit → Permit) : (setPermit s k f).regs = s.regs := rfl
@[simp] theorem setPermit_ana (s : State) (k : Nat) (f : Permit → Permit) : (setPermit s k f).ana = s.ana := rfl
@[simp] theorem setPermit_car (s : State) (k : Nat) (f : Permit → Permit) : (setPermit s k f).car = s.car := rfl
@[simp] theorem setPermit_aux (s : State) (k : Nat) (f : Permit → Permit) : (setPermit s k f).aux = s.aux := rfl
@[simp] theorem setPermit_zon (s : State) (k : Nat) (f : Permit → Permit) : (setPermit s k f).zon = s.zon := rfl
@[simp] theorem setPermit_cpu (s : State) (k : Nat) (f : Permit → Permit) : (setPermit s k f).cpu = s.cpu := rfl
@[simp] theorem setPermit_mem (s : State) (k : Nat) (f : Permit → Permit) : (setPermit s k f).mem = s.mem := rfl
@[simp] theorem setPermit_win (s : State) (k : Nat) (f : Permit → Permit) : (setPermit s k f).win = s.win := rfl
@[simp] theorem setPermit_rq (s : State) (k : Nat) (f : Permit → Permit) : (setPermit s k f).rq = s.rq := rfl
@[simp] theorem setPermit_bq (s : State) (k : Nat) (f : Permit → Permit) : (setPermit s k f).bq = s.bq := rfl
@[simp] theorem setPermit_pa (s : State) (k : Nat) (f : Permit → Permit) : (setPermit s k f).pa = s.pa := rfl
@[simp] theorem setPermit_lnk (s : State) (k : Nat) (f : Permit → Permit) : (setPermit s k f).lnk = s.lnk := rfl
@[simp] theorem setPermit_flt (s : State) (k : Nat) (f : Permit → Permit) : (setPermit s k f).flt = s.flt := rfl
@[simp] theorem setPermit_jtag (s : State) (k : Nat) (f : Permit → Permit) : (setPermit s k f).jtag = s.jtag := rfl
@[simp] theorem setPermit_fw (s : State) (k : Nat) (f : Permit → Permit) : (setPermit s k f).fw = s.fw := rfl
@[simp] theorem setPermit_pending (s : State) (k : Nat) (f : Permit → Permit) : (setPermit s k f).pending = s.pending := rfl

/-! setLamp -/
@[simp] theorem setLamp_pwr (s : State) (k : Nat) (f : Lamp → Lamp) : (setLamp s k f).pwr = s.pwr := rfl
@[simp] theorem setLamp_beat (s : State) (k : Nat) (f : Lamp → Lamp) : (setLamp s k f).beat = s.beat := rfl
@[simp] theorem setLamp_regs (s : State) (k : Nat) (f : Lamp → Lamp) : (setLamp s k f).regs = s.regs := rfl
@[simp] theorem setLamp_ana (s : State) (k : Nat) (f : Lamp → Lamp) : (setLamp s k f).ana = s.ana := rfl
@[simp] theorem setLamp_car (s : State) (k : Nat) (f : Lamp → Lamp) : (setLamp s k f).car = s.car := rfl
@[simp] theorem setLamp_aux (s : State) (k : Nat) (f : Lamp → Lamp) : (setLamp s k f).aux = s.aux := rfl
@[simp] theorem setLamp_zon (s : State) (k : Nat) (f : Lamp → Lamp) : (setLamp s k f).zon = s.zon := rfl
@[simp] theorem setLamp_cpu (s : State) (k : Nat) (f : Lamp → Lamp) : (setLamp s k f).cpu = s.cpu := rfl
@[simp] theorem setLamp_mem (s : State) (k : Nat) (f : Lamp → Lamp) : (setLamp s k f).mem = s.mem := rfl
@[simp] theorem setLamp_win (s : State) (k : Nat) (f : Lamp → Lamp) : (setLamp s k f).win = s.win := rfl
@[simp] theorem setLamp_rq (s : State) (k : Nat) (f : Lamp → Lamp) : (setLamp s k f).rq = s.rq := rfl
@[simp] theorem setLamp_bq (s : State) (k : Nat) (f : Lamp → Lamp) : (setLamp s k f).bq = s.bq := rfl
@[simp] theorem setLamp_pa (s : State) (k : Nat) (f : Lamp → Lamp) : (setLamp s k f).pa = s.pa := rfl
@[simp] theorem setLamp_lnk (s : State) (k : Nat) (f : Lamp → Lamp) : (setLamp s k f).lnk = s.lnk := rfl
@[simp] theorem setLamp_flt (s : State) (k : Nat) (f : Lamp → Lamp) : (setLamp s k f).flt = s.flt := rfl
@[simp] theorem setLamp_jtag (s : State) (k : Nat) (f : Lamp → Lamp) : (setLamp s k f).jtag = s.jtag := rfl
@[simp] theorem setLamp_fw (s : State) (k : Nat) (f : Lamp → Lamp) : (setLamp s k f).fw = s.fw := rfl
@[simp] theorem setLamp_pending (s : State) (k : Nat) (f : Lamp → Lamp) : (setLamp s k f).pending = s.pending := rfl

/-! setPort -/
@[simp] theorem setPort_pwr (s : State) (k : Nat) (f : Port → Port) : (setPort s k f).pwr = s.pwr := rfl
@[simp] theorem setPort_beat (s : State) (k : Nat) (f : Port → Port) : (setPort s k f).beat = s.beat := rfl
@[simp] theorem setPort_regs (s : State) (k : Nat) (f : Port → Port) : (setPort s k f).regs = s.regs := rfl
@[simp] theorem setPort_ana (s : State) (k : Nat) (f : Port → Port) : (setPort s k f).ana = s.ana := rfl
@[simp] theorem setPort_car (s : State) (k : Nat) (f : Port → Port) : (setPort s k f).car = s.car := rfl
@[simp] theorem setPort_aux (s : State) (k : Nat) (f : Port → Port) : (setPort s k f).aux = s.aux := rfl
@[simp] theorem setPort_zon (s : State) (k : Nat) (f : Port → Port) : (setPort s k f).zon = s.zon := rfl
@[simp] theorem setPort_out (s : State) (k : Nat) (f : Port → Port) : (setPort s k f).out = s.out := rfl
@[simp] theorem setPort_cpu (s : State) (k : Nat) (f : Port → Port) : (setPort s k f).cpu = s.cpu := rfl
@[simp] theorem setPort_mem (s : State) (k : Nat) (f : Port → Port) : (setPort s k f).mem = s.mem := rfl
@[simp] theorem setPort_win (s : State) (k : Nat) (f : Port → Port) : (setPort s k f).win = s.win := rfl
@[simp] theorem setPort_rq (s : State) (k : Nat) (f : Port → Port) : (setPort s k f).rq = s.rq := rfl
@[simp] theorem setPort_bq (s : State) (k : Nat) (f : Port → Port) : (setPort s k f).bq = s.bq := rfl
@[simp] theorem setPort_pa (s : State) (k : Nat) (f : Port → Port) : (setPort s k f).pa = s.pa := rfl
@[simp] theorem setPort_flt (s : State) (k : Nat) (f : Port → Port) : (setPort s k f).flt = s.flt := rfl
@[simp] theorem setPort_jtag (s : State) (k : Nat) (f : Port → Port) : (setPort s k f).jtag = s.jtag := rfl
@[simp] theorem setPort_fw (s : State) (k : Nat) (f : Port → Port) : (setPort s k f).fw = s.fw := rfl
@[simp] theorem setPort_pending (s : State) (k : Nat) (f : Port → Port) : (setPort s k f).pending = s.pending := rfl

/-! setAmp -/
@[simp] theorem setAmp_pwr (s : State) (a : Nat) (f : Amp → Amp) : (setAmp s a f).pwr = s.pwr := rfl
@[simp] theorem setAmp_beat (s : State) (a : Nat) (f : Amp → Amp) : (setAmp s a f).beat = s.beat := rfl
@[simp] theorem setAmp_regs (s : State) (a : Nat) (f : Amp → Amp) : (setAmp s a f).regs = s.regs := rfl
@[simp] theorem setAmp_car (s : State) (a : Nat) (f : Amp → Amp) : (setAmp s a f).car = s.car := rfl
@[simp] theorem setAmp_aux (s : State) (a : Nat) (f : Amp → Amp) : (setAmp s a f).aux = s.aux := rfl
@[simp] theorem setAmp_zon (s : State) (a : Nat) (f : Amp → Amp) : (setAmp s a f).zon = s.zon := rfl
@[simp] theorem setAmp_out (s : State) (a : Nat) (f : Amp → Amp) : (setAmp s a f).out = s.out := rfl
@[simp] theorem setAmp_cpu (s : State) (a : Nat) (f : Amp → Amp) : (setAmp s a f).cpu = s.cpu := rfl
@[simp] theorem setAmp_mem (s : State) (a : Nat) (f : Amp → Amp) : (setAmp s a f).mem = s.mem := rfl
@[simp] theorem setAmp_win (s : State) (a : Nat) (f : Amp → Amp) : (setAmp s a f).win = s.win := rfl
@[simp] theorem setAmp_rq (s : State) (a : Nat) (f : Amp → Amp) : (setAmp s a f).rq = s.rq := rfl
@[simp] theorem setAmp_bq (s : State) (a : Nat) (f : Amp → Amp) : (setAmp s a f).bq = s.bq := rfl
@[simp] theorem setAmp_pa (s : State) (a : Nat) (f : Amp → Amp) : (setAmp s a f).pa = s.pa := rfl
@[simp] theorem setAmp_lnk (s : State) (a : Nat) (f : Amp → Amp) : (setAmp s a f).lnk = s.lnk := rfl
@[simp] theorem setAmp_flt (s : State) (a : Nat) (f : Amp → Amp) : (setAmp s a f).flt = s.flt := rfl
@[simp] theorem setAmp_jtag (s : State) (a : Nat) (f : Amp → Amp) : (setAmp s a f).jtag = s.jtag := rfl
@[simp] theorem setAmp_fw (s : State) (a : Nat) (f : Amp → Amp) : (setAmp s a f).fw = s.fw := rfl
@[simp] theorem setAmp_pending (s : State) (a : Nat) (f : Amp → Amp) : (setAmp s a f).pending = s.pending := rfl

/-! setStaged -/
@[simp] theorem setStaged_pwr (s : State) (k : Nat) (v : W16) : (setStaged s k v).pwr = s.pwr := rfl
@[simp] theorem setStaged_beat (s : State) (k : Nat) (v : W16) : (setStaged s k v).beat = s.beat := rfl
@[simp] theorem setStaged_ana (s : State) (k : Nat) (v : W16) : (setStaged s k v).ana = s.ana := rfl
@[simp] theorem setStaged_car (s : State) (k : Nat) (v : W16) : (setStaged s k v).car = s.car := rfl
@[simp] theorem setStaged_aux (s : State) (k : Nat) (v : W16) : (setStaged s k v).aux = s.aux := rfl
@[simp] theorem setStaged_zon (s : State) (k : Nat) (v : W16) : (setStaged s k v).zon = s.zon := rfl
@[simp] theorem setStaged_out (s : State) (k : Nat) (v : W16) : (setStaged s k v).out = s.out := rfl
@[simp] theorem setStaged_cpu (s : State) (k : Nat) (v : W16) : (setStaged s k v).cpu = s.cpu := rfl
@[simp] theorem setStaged_mem (s : State) (k : Nat) (v : W16) : (setStaged s k v).mem = s.mem := rfl
@[simp] theorem setStaged_win (s : State) (k : Nat) (v : W16) : (setStaged s k v).win = s.win := rfl
@[simp] theorem setStaged_rq (s : State) (k : Nat) (v : W16) : (setStaged s k v).rq = s.rq := rfl
@[simp] theorem setStaged_bq (s : State) (k : Nat) (v : W16) : (setStaged s k v).bq = s.bq := rfl
@[simp] theorem setStaged_pa (s : State) (k : Nat) (v : W16) : (setStaged s k v).pa = s.pa := rfl
@[simp] theorem setStaged_lnk (s : State) (k : Nat) (v : W16) : (setStaged s k v).lnk = s.lnk := rfl
@[simp] theorem setStaged_flt (s : State) (k : Nat) (v : W16) : (setStaged s k v).flt = s.flt := rfl
@[simp] theorem setStaged_jtag (s : State) (k : Nat) (v : W16) : (setStaged s k v).jtag = s.jtag := rfl
@[simp] theorem setStaged_fw (s : State) (k : Nat) (v : W16) : (setStaged s k v).fw = s.fw := rfl
@[simp] theorem setStaged_pending (s : State) (k : Nat) (v : W16) : (setStaged s k v).pending = s.pending := rfl

/-! setForce -/
@[simp] theorem setForce_pwr (s : State) (k : Nat) (v : W16) : (setForce s k v).pwr = s.pwr := rfl
@[simp] theorem setForce_beat (s : State) (k : Nat) (v : W16) : (setForce s k v).beat = s.beat := rfl
@[simp] theorem setForce_ana (s : State) (k : Nat) (v : W16) : (setForce s k v).ana = s.ana := rfl
@[simp] theorem setForce_car (s : State) (k : Nat) (v : W16) : (setForce s k v).car = s.car := rfl
@[simp] theorem setForce_aux (s : State) (k : Nat) (v : W16) : (setForce s k v).aux = s.aux := rfl
@[simp] theorem setForce_zon (s : State) (k : Nat) (v : W16) : (setForce s k v).zon = s.zon := rfl
@[simp] theorem setForce_out (s : State) (k : Nat) (v : W16) : (setForce s k v).out = s.out := rfl
@[simp] theorem setForce_cpu (s : State) (k : Nat) (v : W16) : (setForce s k v).cpu = s.cpu := rfl
@[simp] theorem setForce_mem (s : State) (k : Nat) (v : W16) : (setForce s k v).mem = s.mem := rfl
@[simp] theorem setForce_win (s : State) (k : Nat) (v : W16) : (setForce s k v).win = s.win := rfl
@[simp] theorem setForce_rq (s : State) (k : Nat) (v : W16) : (setForce s k v).rq = s.rq := rfl
@[simp] theorem setForce_bq (s : State) (k : Nat) (v : W16) : (setForce s k v).bq = s.bq := rfl
@[simp] theorem setForce_pa (s : State) (k : Nat) (v : W16) : (setForce s k v).pa = s.pa := rfl
@[simp] theorem setForce_lnk (s : State) (k : Nat) (v : W16) : (setForce s k v).lnk = s.lnk := rfl
@[simp] theorem setForce_flt (s : State) (k : Nat) (v : W16) : (setForce s k v).flt = s.flt := rfl
@[simp] theorem setForce_jtag (s : State) (k : Nat) (v : W16) : (setForce s k v).jtag = s.jtag := rfl
@[simp] theorem setForce_fw (s : State) (k : Nat) (v : W16) : (setForce s k v).fw = s.fw := rfl
@[simp] theorem setForce_pending (s : State) (k : Nat) (v : W16) : (setForce s k v).pending = s.pending := rfl

/-! setBoth -/
@[simp] theorem setBoth_pwr (s : State) (k : Nat) (v : W16) : (setBoth s k v).pwr = s.pwr := rfl
@[simp] theorem setBoth_beat (s : State) (k : Nat) (v : W16) : (setBoth s k v).beat = s.beat := rfl
@[simp] theorem setBoth_ana (s : State) (k : Nat) (v : W16) : (setBoth s k v).ana = s.ana := rfl
@[simp] theorem setBoth_car (s : State) (k : Nat) (v : W16) : (setBoth s k v).car = s.car := rfl
@[simp] theorem setBoth_aux (s : State) (k : Nat) (v : W16) : (setBoth s k v).aux = s.aux := rfl
@[simp] theorem setBoth_zon (s : State) (k : Nat) (v : W16) : (setBoth s k v).zon = s.zon := rfl
@[simp] theorem setBoth_out (s : State) (k : Nat) (v : W16) : (setBoth s k v).out = s.out := rfl
@[simp] theorem setBoth_cpu (s : State) (k : Nat) (v : W16) : (setBoth s k v).cpu = s.cpu := rfl
@[simp] theorem setBoth_mem (s : State) (k : Nat) (v : W16) : (setBoth s k v).mem = s.mem := rfl
@[simp] theorem setBoth_win (s : State) (k : Nat) (v : W16) : (setBoth s k v).win = s.win := rfl
@[simp] theorem setBoth_rq (s : State) (k : Nat) (v : W16) : (setBoth s k v).rq = s.rq := rfl
@[simp] theorem setBoth_bq (s : State) (k : Nat) (v : W16) : (setBoth s k v).bq = s.bq := rfl
@[simp] theorem setBoth_pa (s : State) (k : Nat) (v : W16) : (setBoth s k v).pa = s.pa := rfl
@[simp] theorem setBoth_lnk (s : State) (k : Nat) (v : W16) : (setBoth s k v).lnk = s.lnk := rfl
@[simp] theorem setBoth_flt (s : State) (k : Nat) (v : W16) : (setBoth s k v).flt = s.flt := rfl
@[simp] theorem setBoth_jtag (s : State) (k : Nat) (v : W16) : (setBoth s k v).jtag = s.jtag := rfl
@[simp] theorem setBoth_fw (s : State) (k : Nat) (v : W16) : (setBoth s k v).fw = s.fw := rfl
@[simp] theorem setBoth_pending (s : State) (k : Nat) (v : W16) : (setBoth s k v).pending = s.pending := rfl

/-! stage -/
@[simp] theorem stage_pwr (s : State) (k : Nat) (v : W16) : (stage s k v).pwr = s.pwr := rfl
@[simp] theorem stage_beat (s : State) (k : Nat) (v : W16) : (stage s k v).beat = s.beat := rfl
@[simp] theorem stage_ana (s : State) (k : Nat) (v : W16) : (stage s k v).ana = s.ana := rfl
@[simp] theorem stage_car (s : State) (k : Nat) (v : W16) : (stage s k v).car = s.car := rfl
@[simp] theorem stage_aux (s : State) (k : Nat) (v : W16) : (stage s k v).aux = s.aux := rfl
@[simp] theorem stage_zon (s : State) (k : Nat) (v : W16) : (stage s k v).zon = s.zon := rfl
@[simp] theorem stage_out (s : State) (k : Nat) (v : W16) : (stage s k v).out = s.out := rfl
@[simp] theorem stage_cpu (s : State) (k : Nat) (v : W16) : (stage s k v).cpu = s.cpu := rfl
@[simp] theorem stage_mem (s : State) (k : Nat) (v : W16) : (stage s k v).mem = s.mem := rfl
@[simp] theorem stage_win (s : State) (k : Nat) (v : W16) : (stage s k v).win = s.win := rfl
@[simp] theorem stage_rq (s : State) (k : Nat) (v : W16) : (stage s k v).rq = s.rq := rfl
@[simp] theorem stage_bq (s : State) (k : Nat) (v : W16) : (stage s k v).bq = s.bq := rfl
@[simp] theorem stage_pa (s : State) (k : Nat) (v : W16) : (stage s k v).pa = s.pa := rfl
@[simp] theorem stage_lnk (s : State) (k : Nat) (v : W16) : (stage s k v).lnk = s.lnk := rfl
@[simp] theorem stage_flt (s : State) (k : Nat) (v : W16) : (stage s k v).flt = s.flt := rfl
@[simp] theorem stage_jtag (s : State) (k : Nat) (v : W16) : (stage s k v).jtag = s.jtag := rfl
@[simp] theorem stage_fw (s : State) (k : Nat) (v : W16) : (stage s k v).fw = s.fw := rfl
@[simp] theorem stage_pending (s : State) (k : Nat) (v : W16) : (stage s k v).pending = s.pending := rfl

/-! plainWrite -/
@[simp] theorem plainWrite_pwr (s : State) (k : Nat) (v : W16) : (plainWrite s k v).pwr = s.pwr := by unfold plainWrite; dsimp only; split; rfl; split <;> rfl
@[simp] theorem plainWrite_beat (s : State) (k : Nat) (v : W16) : (plainWrite s k v).beat = s.beat := by unfold plainWrite; dsimp only; split; rfl; split <;> rfl
@[simp] theorem plainWrite_ana (s : State) (k : Nat) (v : W16) : (plainWrite s k v).ana = s.ana := by unfold plainWrite; dsimp only; split; rfl; split <;> rfl
@[simp] theorem plainWrite_car (s : State) (k : Nat) (v : W16) : (plainWrite s k v).car = s.car := by unfold plainWrite; dsimp only; split; rfl; split <;> rfl
@[simp] theorem plainWrite_aux (s : State) (k : Nat) (v : W16) : (plainWrite s k v).aux = s.aux := by unfold plainWrite; dsimp only; split; rfl; split <;> rfl
@[simp] theorem plainWrite_zon (s : State) (k : Nat) (v : W16) : (plainWrite s k v).zon = s.zon := by unfold plainWrite; dsimp only; split; rfl; split <;> rfl
@[simp] theorem plainWrite_out (s : State) (k : Nat) (v : W16) : (plainWrite s k v).out = s.out := by unfold plainWrite; dsimp only; split; rfl; split <;> rfl
@[simp] theorem plainWrite_cpu (s : State) (k : Nat) (v : W16) : (plainWrite s k v).cpu = s.cpu := by unfold plainWrite; dsimp only; split; rfl; split <;> rfl
@[simp] theorem plainWrite_mem (s : State) (k : Nat) (v : W16) : (plainWrite s k v).mem = s.mem := by unfold plainWrite; dsimp only; split; rfl; split <;> rfl
@[simp] theorem plainWrite_win (s : State) (k : Nat) (v : W16) : (plainWrite s k v).win = s.win := by unfold plainWrite; dsimp only; split; rfl; split <;> rfl
@[simp] theorem plainWrite_rq (s : State) (k : Nat) (v : W16) : (plainWrite s k v).rq = s.rq := by unfold plainWrite; dsimp only; split; rfl; split <;> rfl
@[simp] theorem plainWrite_bq (s : State) (k : Nat) (v : W16) : (plainWrite s k v).bq = s.bq := by unfold plainWrite; dsimp only; split; rfl; split <;> rfl
@[simp] theorem plainWrite_pa (s : State) (k : Nat) (v : W16) : (plainWrite s k v).pa = s.pa := by unfold plainWrite; dsimp only; split; rfl; split <;> rfl
@[simp] theorem plainWrite_lnk (s : State) (k : Nat) (v : W16) : (plainWrite s k v).lnk = s.lnk := by unfold plainWrite; dsimp only; split; rfl; split <;> rfl
@[simp] theorem plainWrite_flt (s : State) (k : Nat) (v : W16) : (plainWrite s k v).flt = s.flt := by unfold plainWrite; dsimp only; split; rfl; split <;> rfl
@[simp] theorem plainWrite_jtag (s : State) (k : Nat) (v : W16) : (plainWrite s k v).jtag = s.jtag := by unfold plainWrite; dsimp only; split; rfl; split <;> rfl
@[simp] theorem plainWrite_fw (s : State) (k : Nat) (v : W16) : (plainWrite s k v).fw = s.fw := by unfold plainWrite; dsimp only; split; rfl; split <;> rfl
@[simp] theorem plainWrite_pending (s : State) (k : Nat) (v : W16) : (plainWrite s k v).pending = s.pending := by unfold plainWrite; dsimp only; split; rfl; split <;> rfl

/-! raise -/
@[simp] theorem raise_beat (s : State) (b : Nat) : (raise s b).beat = s.beat := rfl
@[simp] theorem raise_regs (s : State) (b : Nat) : (raise s b).regs = s.regs := rfl
@[simp] theorem raise_ana (s : State) (b : Nat) : (raise s b).ana = s.ana := rfl
@[simp] theorem raise_car (s : State) (b : Nat) : (raise s b).car = s.car := rfl
@[simp] theorem raise_aux (s : State) (b : Nat) : (raise s b).aux = s.aux := rfl
@[simp] theorem raise_zon (s : State) (b : Nat) : (raise s b).zon = s.zon := rfl
@[simp] theorem raise_out (s : State) (b : Nat) : (raise s b).out = s.out := rfl
@[simp] theorem raise_cpu (s : State) (b : Nat) : (raise s b).cpu = s.cpu := rfl
@[simp] theorem raise_mem (s : State) (b : Nat) : (raise s b).mem = s.mem := rfl
@[simp] theorem raise_win (s : State) (b : Nat) : (raise s b).win = s.win := rfl
@[simp] theorem raise_rq (s : State) (b : Nat) : (raise s b).rq = s.rq := rfl
@[simp] theorem raise_bq (s : State) (b : Nat) : (raise s b).bq = s.bq := rfl
@[simp] theorem raise_pa (s : State) (b : Nat) : (raise s b).pa = s.pa := rfl
@[simp] theorem raise_lnk (s : State) (b : Nat) : (raise s b).lnk = s.lnk := rfl
@[simp] theorem raise_flt (s : State) (b : Nat) : (raise s b).flt = s.flt := rfl
@[simp] theorem raise_jtag (s : State) (b : Nat) : (raise s b).jtag = s.jtag := rfl
@[simp] theorem raise_fw (s : State) (b : Nat) : (raise s b).fw = s.fw := rfl
@[simp] theorem raise_pending (s : State) (b : Nat) : (raise s b).pending = s.pending := rfl

/-! logEv -/
@[simp] theorem logEv_pwr (s : State) (kind unit : Nat) (detail : W16) : (logEv s kind unit detail).pwr = s.pwr := rfl
@[simp] theorem logEv_beat (s : State) (kind unit : Nat) (detail : W16) : (logEv s kind unit detail).beat = s.beat := rfl
@[simp] theorem logEv_regs (s : State) (kind unit : Nat) (detail : W16) : (logEv s kind unit detail).regs = s.regs := rfl
@[simp] theorem logEv_ana (s : State) (kind unit : Nat) (detail : W16) : (logEv s kind unit detail).ana = s.ana := rfl
@[simp] theorem logEv_car (s : State) (kind unit : Nat) (detail : W16) : (logEv s kind unit detail).car = s.car := rfl
@[simp] theorem logEv_aux (s : State) (kind unit : Nat) (detail : W16) : (logEv s kind unit detail).aux = s.aux := rfl
@[simp] theorem logEv_zon (s : State) (kind unit : Nat) (detail : W16) : (logEv s kind unit detail).zon = s.zon := rfl
@[simp] theorem logEv_out (s : State) (kind unit : Nat) (detail : W16) : (logEv s kind unit detail).out = s.out := rfl
@[simp] theorem logEv_cpu (s : State) (kind unit : Nat) (detail : W16) : (logEv s kind unit detail).cpu = s.cpu := rfl
@[simp] theorem logEv_mem (s : State) (kind unit : Nat) (detail : W16) : (logEv s kind unit detail).mem = s.mem := rfl
@[simp] theorem logEv_win (s : State) (kind unit : Nat) (detail : W16) : (logEv s kind unit detail).win = s.win := rfl
@[simp] theorem logEv_rq (s : State) (kind unit : Nat) (detail : W16) : (logEv s kind unit detail).rq = s.rq := rfl
@[simp] theorem logEv_bq (s : State) (kind unit : Nat) (detail : W16) : (logEv s kind unit detail).bq = s.bq := rfl
@[simp] theorem logEv_pa (s : State) (kind unit : Nat) (detail : W16) : (logEv s kind unit detail).pa = s.pa := rfl
@[simp] theorem logEv_lnk (s : State) (kind unit : Nat) (detail : W16) : (logEv s kind unit detail).lnk = s.lnk := rfl
@[simp] theorem logEv_jtag (s : State) (kind unit : Nat) (detail : W16) : (logEv s kind unit detail).jtag = s.jtag := rfl
@[simp] theorem logEv_fw (s : State) (kind unit : Nat) (detail : W16) : (logEv s kind unit detail).fw = s.fw := rfl
@[simp] theorem logEv_pending (s : State) (kind unit : Nat) (detail : W16) : (logEv s kind unit detail).pending = s.pending := rfl

/-! countSoft -/
@[simp] theorem countSoft_pwr (s : State) : (countSoft s).pwr = s.pwr := rfl
@[simp] theorem countSoft_beat (s : State) : (countSoft s).beat = s.beat := rfl
@[simp] theorem countSoft_regs (s : State) : (countSoft s).regs = s.regs := rfl
@[simp] theorem countSoft_ana (s : State) : (countSoft s).ana = s.ana := rfl
@[simp] theorem countSoft_car (s : State) : (countSoft s).car = s.car := rfl
@[simp] theorem countSoft_aux (s : State) : (countSoft s).aux = s.aux := rfl
@[simp] theorem countSoft_zon (s : State) : (countSoft s).zon = s.zon := rfl
@[simp] theorem countSoft_out (s : State) : (countSoft s).out = s.out := rfl
@[simp] theorem countSoft_cpu (s : State) : (countSoft s).cpu = s.cpu := rfl
@[simp] theorem countSoft_mem (s : State) : (countSoft s).mem = s.mem := rfl
@[simp] theorem countSoft_win (s : State) : (countSoft s).win = s.win := rfl
@[simp] theorem countSoft_rq (s : State) : (countSoft s).rq = s.rq := rfl
@[simp] theorem countSoft_bq (s : State) : (countSoft s).bq = s.bq := rfl
@[simp] theorem countSoft_pa (s : State) : (countSoft s).pa = s.pa := rfl
@[simp] theorem countSoft_lnk (s : State) : (countSoft s).lnk = s.lnk := rfl
@[simp] theorem countSoft_jtag (s : State) : (countSoft s).jtag = s.jtag := rfl
@[simp] theorem countSoft_fw (s : State) : (countSoft s).fw = s.fw := rfl
@[simp] theorem countSoft_pending (s : State) : (countSoft s).pending = s.pending := rfl

/-! draw -/
@[simp] theorem draw_pwr (s : State) : (draw s).2.pwr = s.pwr := rfl
@[simp] theorem draw_regs (s : State) : (draw s).2.regs = s.regs := rfl
@[simp] theorem draw_ana (s : State) : (draw s).2.ana = s.ana := rfl
@[simp] theorem draw_car (s : State) : (draw s).2.car = s.car := rfl
@[simp] theorem draw_aux (s : State) : (draw s).2.aux = s.aux := rfl
@[simp] theorem draw_zon (s : State) : (draw s).2.zon = s.zon := rfl
@[simp] theorem draw_out (s : State) : (draw s).2.out = s.out := rfl
@[simp] theorem draw_cpu (s : State) : (draw s).2.cpu = s.cpu := rfl
@[simp] theorem draw_mem (s : State) : (draw s).2.mem = s.mem := rfl
@[simp] theorem draw_win (s : State) : (draw s).2.win = s.win := rfl
@[simp] theorem draw_rq (s : State) : (draw s).2.rq = s.rq := rfl
@[simp] theorem draw_bq (s : State) : (draw s).2.bq = s.bq := rfl
@[simp] theorem draw_pa (s : State) : (draw s).2.pa = s.pa := rfl
@[simp] theorem draw_lnk (s : State) : (draw s).2.lnk = s.lnk := rfl
@[simp] theorem draw_flt (s : State) : (draw s).2.flt = s.flt := rfl
@[simp] theorem draw_jtag (s : State) : (draw s).2.jtag = s.jtag := rfl
@[simp] theorem draw_fw (s : State) : (draw s).2.fw = s.fw := rfl
@[simp] theorem draw_pending (s : State) : (draw s).2.pending = s.pending := rfl

/-! wr8 -/
@[simp] theorem wr8_pwr (s : State) (a : Nat) (v : Byte) : (wr8 s a v).pwr = s.pwr := rfl
@[simp] theorem wr8_beat (s : State) (a : Nat) (v : Byte) : (wr8 s a v).beat = s.beat := rfl
@[simp] theorem wr8_regs (s : State) (a : Nat) (v : Byte) : (wr8 s a v).regs = s.regs := rfl
@[simp] theorem wr8_ana (s : State) (a : Nat) (v : Byte) : (wr8 s a v).ana = s.ana := rfl
@[simp] theorem wr8_car (s : State) (a : Nat) (v : Byte) : (wr8 s a v).car = s.car := rfl
@[simp] theorem wr8_aux (s : State) (a : Nat) (v : Byte) : (wr8 s a v).aux = s.aux := rfl
@[simp] theorem wr8_zon (s : State) (a : Nat) (v : Byte) : (wr8 s a v).zon = s.zon := rfl
@[simp] theorem wr8_out (s : State) (a : Nat) (v : Byte) : (wr8 s a v).out = s.out := rfl
@[simp] theorem wr8_cpu (s : State) (a : Nat) (v : Byte) : (wr8 s a v).cpu = s.cpu := rfl
@[simp] theorem wr8_win (s : State) (a : Nat) (v : Byte) : (wr8 s a v).win = s.win := rfl
@[simp] theorem wr8_rq (s : State) (a : Nat) (v : Byte) : (wr8 s a v).rq = s.rq := rfl
@[simp] theorem wr8_bq (s : State) (a : Nat) (v : Byte) : (wr8 s a v).bq = s.bq := rfl
@[simp] theorem wr8_pa (s : State) (a : Nat) (v : Byte) : (wr8 s a v).pa = s.pa := rfl
@[simp] theorem wr8_lnk (s : State) (a : Nat) (v : Byte) : (wr8 s a v).lnk = s.lnk := rfl
@[simp] theorem wr8_flt (s : State) (a : Nat) (v : Byte) : (wr8 s a v).flt = s.flt := rfl
@[simp] theorem wr8_jtag (s : State) (a : Nat) (v : Byte) : (wr8 s a v).jtag = s.jtag := rfl
@[simp] theorem wr8_fw (s : State) (a : Nat) (v : Byte) : (wr8 s a v).fw = s.fw := rfl
@[simp] theorem wr8_pending (s : State) (a : Nat) (v : Byte) : (wr8 s a v).pending = s.pending := rfl

/-! wr16 -/
@[simp] theorem wr16_pwr (s : State) (a : Nat) (v : W16) : (wr16 s a v).pwr = s.pwr := rfl
@[simp] theorem wr16_beat (s : State) (a : Nat) (v : W16) : (wr16 s a v).beat = s.beat := rfl
@[simp] theorem wr16_regs (s : State) (a : Nat) (v : W16) : (wr16 s a v).regs = s.regs := rfl
@[simp] theorem wr16_ana (s : State) (a : Nat) (v : W16) : (wr16 s a v).ana = s.ana := rfl
@[simp] theorem wr16_car (s : State) (a : Nat) (v : W16) : (wr16 s a v).car = s.car := rfl
@[simp] theorem wr16_aux (s : State) (a : Nat) (v : W16) : (wr16 s a v).aux = s.aux := rfl
@[simp] theorem wr16_zon (s : State) (a : Nat) (v : W16) : (wr16 s a v).zon = s.zon := rfl
@[simp] theorem wr16_out (s : State) (a : Nat) (v : W16) : (wr16 s a v).out = s.out := rfl
@[simp] theorem wr16_cpu (s : State) (a : Nat) (v : W16) : (wr16 s a v).cpu = s.cpu := rfl
@[simp] theorem wr16_win (s : State) (a : Nat) (v : W16) : (wr16 s a v).win = s.win := rfl
@[simp] theorem wr16_rq (s : State) (a : Nat) (v : W16) : (wr16 s a v).rq = s.rq := rfl
@[simp] theorem wr16_bq (s : State) (a : Nat) (v : W16) : (wr16 s a v).bq = s.bq := rfl
@[simp] theorem wr16_pa (s : State) (a : Nat) (v : W16) : (wr16 s a v).pa = s.pa := rfl
@[simp] theorem wr16_lnk (s : State) (a : Nat) (v : W16) : (wr16 s a v).lnk = s.lnk := rfl
@[simp] theorem wr16_flt (s : State) (a : Nat) (v : W16) : (wr16 s a v).flt = s.flt := rfl
@[simp] theorem wr16_jtag (s : State) (a : Nat) (v : W16) : (wr16 s a v).jtag = s.jtag := rfl
@[simp] theorem wr16_fw (s : State) (a : Nat) (v : W16) : (wr16 s a v).fw = s.fw := rfl
@[simp] theorem wr16_pending (s : State) (a : Nat) (v : W16) : (wr16 s a v).pending = s.pending := rfl

/-! wr32 -/
@[simp] theorem wr32_pwr (s : State) (a : Nat) (v : W32) : (wr32 s a v).pwr = s.pwr := rfl
@[simp] theorem wr32_beat (s : State) (a : Nat) (v : W32) : (wr32 s a v).beat = s.beat := rfl
@[simp] theorem wr32_regs (s : State) (a : Nat) (v : W32) : (wr32 s a v).regs = s.regs := rfl
@[simp] theorem wr32_ana (s : State) (a : Nat) (v : W32) : (wr32 s a v).ana = s.ana := rfl
@[simp] theorem wr32_car (s : State) (a : Nat) (v : W32) : (wr32 s a v).car = s.car := rfl
@[simp] theorem wr32_aux (s : State) (a : Nat) (v : W32) : (wr32 s a v).aux = s.aux := rfl
@[simp] theorem wr32_zon (s : State) (a : Nat) (v : W32) : (wr32 s a v).zon = s.zon := rfl
@[simp] theorem wr32_out (s : State) (a : Nat) (v : W32) : (wr32 s a v).out = s.out := rfl
@[simp] theorem wr32_cpu (s : State) (a : Nat) (v : W32) : (wr32 s a v).cpu = s.cpu := rfl
@[simp] theorem wr32_win (s : State) (a : Nat) (v : W32) : (wr32 s a v).win = s.win := rfl
@[simp] theorem wr32_rq (s : State) (a : Nat) (v : W32) : (wr32 s a v).rq = s.rq := rfl
@[simp] theorem wr32_bq (s : State) (a : Nat) (v : W32) : (wr32 s a v).bq = s.bq := rfl
@[simp] theorem wr32_pa (s : State) (a : Nat) (v : W32) : (wr32 s a v).pa = s.pa := rfl
@[simp] theorem wr32_lnk (s : State) (a : Nat) (v : W32) : (wr32 s a v).lnk = s.lnk := rfl
@[simp] theorem wr32_flt (s : State) (a : Nat) (v : W32) : (wr32 s a v).flt = s.flt := rfl
@[simp] theorem wr32_jtag (s : State) (a : Nat) (v : W32) : (wr32 s a v).jtag = s.jtag := rfl
@[simp] theorem wr32_fw (s : State) (a : Nat) (v : W32) : (wr32 s a v).fw = s.fw := rfl
@[simp] theorem wr32_pending (s : State) (a : Nat) (v : W32) : (wr32 s a v).pending = s.pending := rfl

/-! clearMem -/
@[simp] theorem clearMem_pwr (s : State) (lo hi : Nat) : (clearMem s lo hi).pwr = s.pwr := rfl
@[simp] theorem clearMem_beat (s : State) (lo hi : Nat) : (clearMem s lo hi).beat = s.beat := rfl
@[simp] theorem clearMem_regs (s : State) (lo hi : Nat) : (clearMem s lo hi).regs = s.regs := rfl
@[simp] theorem clearMem_ana (s : State) (lo hi : Nat) : (clearMem s lo hi).ana = s.ana := rfl
@[simp] theorem clearMem_car (s : State) (lo hi : Nat) : (clearMem s lo hi).car = s.car := rfl
@[simp] theorem clearMem_aux (s : State) (lo hi : Nat) : (clearMem s lo hi).aux = s.aux := rfl
@[simp] theorem clearMem_zon (s : State) (lo hi : Nat) : (clearMem s lo hi).zon = s.zon := rfl
@[simp] theorem clearMem_out (s : State) (lo hi : Nat) : (clearMem s lo hi).out = s.out := rfl
@[simp] theorem clearMem_cpu (s : State) (lo hi : Nat) : (clearMem s lo hi).cpu = s.cpu := rfl
@[simp] theorem clearMem_win (s : State) (lo hi : Nat) : (clearMem s lo hi).win = s.win := rfl
@[simp] theorem clearMem_rq (s : State) (lo hi : Nat) : (clearMem s lo hi).rq = s.rq := rfl
@[simp] theorem clearMem_bq (s : State) (lo hi : Nat) : (clearMem s lo hi).bq = s.bq := rfl
@[simp] theorem clearMem_pa (s : State) (lo hi : Nat) : (clearMem s lo hi).pa = s.pa := rfl
@[simp] theorem clearMem_lnk (s : State) (lo hi : Nat) : (clearMem s lo hi).lnk = s.lnk := rfl
@[simp] theorem clearMem_flt (s : State) (lo hi : Nat) : (clearMem s lo hi).flt = s.flt := rfl
@[simp] theorem clearMem_jtag (s : State) (lo hi : Nat) : (clearMem s lo hi).jtag = s.jtag := rfl
@[simp] theorem clearMem_fw (s : State) (lo hi : Nat) : (clearMem s lo hi).fw = s.fw := rfl
@[simp] theorem clearMem_pending (s : State) (lo hi : Nat) : (clearMem s lo hi).pending = s.pending := rfl

/-! refault -/
@[simp] theorem refault_pwr (s : State) (cls idx : Nat) : (refault s cls idx).pwr = s.pwr := rfl
@[simp] theorem refault_beat (s : State) (cls idx : Nat) : (refault s cls idx).beat = s.beat := rfl
@[simp] theorem refault_regs (s : State) (cls idx : Nat) : (refault s cls idx).regs = s.regs := rfl
@[simp] theorem refault_ana (s : State) (cls idx : Nat) : (refault s cls idx).ana = s.ana := rfl
@[simp] theorem refault_car (s : State) (cls idx : Nat) : (refault s cls idx).car = s.car := rfl
@[simp] theorem refault_aux (s : State) (cls idx : Nat) : (refault s cls idx).aux = s.aux := rfl
@[simp] theorem refault_zon (s : State) (cls idx : Nat) : (refault s cls idx).zon = s.zon := rfl
@[simp] theorem refault_out (s : State) (cls idx : Nat) : (refault s cls idx).out = s.out := rfl
@[simp] theorem refault_cpu (s : State) (cls idx : Nat) : (refault s cls idx).cpu = s.cpu := rfl
@[simp] theorem refault_mem (s : State) (cls idx : Nat) : (refault s cls idx).mem = s.mem := rfl
@[simp] theorem refault_win (s : State) (cls idx : Nat) : (refault s cls idx).win = s.win := rfl
@[simp] theorem refault_rq (s : State) (cls idx : Nat) : (refault s cls idx).rq = s.rq := rfl
@[simp] theorem refault_bq (s : State) (cls idx : Nat) : (refault s cls idx).bq = s.bq := rfl
@[simp] theorem refault_pa (s : State) (cls idx : Nat) : (refault s cls idx).pa = s.pa := rfl
@[simp] theorem refault_lnk (s : State) (cls idx : Nat) : (refault s cls idx).lnk = s.lnk := rfl
@[simp] theorem refault_jtag (s : State) (cls idx : Nat) : (refault s cls idx).jtag = s.jtag := rfl
@[simp] theorem refault_fw (s : State) (cls idx : Nat) : (refault s cls idx).fw = s.fw := rfl
@[simp] theorem refault_pending (s : State) (cls idx : Nat) : (refault s cls idx).pending = s.pending := rfl

/-! fenceNote -/
@[simp] theorem fenceNote_beat (s : State) (kind unit : Nat) (detail : W16) : (fenceNote s kind unit detail).beat = s.beat := rfl
@[simp] theorem fenceNote_regs (s : State) (kind unit : Nat) (detail : W16) : (fenceNote s kind unit detail).regs = s.regs := rfl
@[simp] theorem fenceNote_ana (s : State) (kind unit : Nat) (detail : W16) : (fenceNote s kind unit detail).ana = s.ana := rfl
@[simp] theorem fenceNote_car (s : State) (kind unit : Nat) (detail : W16) : (fenceNote s kind unit detail).car = s.car := rfl
@[simp] theorem fenceNote_aux (s : State) (kind unit : Nat) (detail : W16) : (fenceNote s kind unit detail).aux = s.aux := rfl
@[simp] theorem fenceNote_zon (s : State) (kind unit : Nat) (detail : W16) : (fenceNote s kind unit detail).zon = s.zon := rfl
@[simp] theorem fenceNote_out (s : State) (kind unit : Nat) (detail : W16) : (fenceNote s kind unit detail).out = s.out := rfl
@[simp] theorem fenceNote_cpu (s : State) (kind unit : Nat) (detail : W16) : (fenceNote s kind unit detail).cpu = s.cpu := rfl
@[simp] theorem fenceNote_mem (s : State) (kind unit : Nat) (detail : W16) : (fenceNote s kind unit detail).mem = s.mem := rfl
@[simp] theorem fenceNote_win (s : State) (kind unit : Nat) (detail : W16) : (fenceNote s kind unit detail).win = s.win := rfl
@[simp] theorem fenceNote_rq (s : State) (kind unit : Nat) (detail : W16) : (fenceNote s kind unit detail).rq = s.rq := rfl
@[simp] theorem fenceNote_bq (s : State) (kind unit : Nat) (detail : W16) : (fenceNote s kind unit detail).bq = s.bq := rfl
@[simp] theorem fenceNote_pa (s : State) (kind unit : Nat) (detail : W16) : (fenceNote s kind unit detail).pa = s.pa := rfl
@[simp] theorem fenceNote_lnk (s : State) (kind unit : Nat) (detail : W16) : (fenceNote s kind unit detail).lnk = s.lnk := rfl
@[simp] theorem fenceNote_jtag (s : State) (kind unit : Nat) (detail : W16) : (fenceNote s kind unit detail).jtag = s.jtag := rfl
@[simp] theorem fenceNote_fw (s : State) (kind unit : Nat) (detail : W16) : (fenceNote s kind unit detail).fw = s.fw := rfl
@[simp] theorem fenceNote_pending (s : State) (kind unit : Nat) (detail : W16) : (fenceNote s kind unit detail).pending = s.pending := rfl

/-! setHd -/
@[simp] theorem setHd_pwr (s : State) (v : W16) : (setHd s v).pwr = s.pwr := rfl
@[simp] theorem setHd_beat (s : State) (v : W16) : (setHd s v).beat = s.beat := rfl
@[simp] theorem setHd_regs (s : State) (v : W16) : (setHd s v).regs = s.regs := rfl
@[simp] theorem setHd_ana (s : State) (v : W16) : (setHd s v).ana = s.ana := rfl
@[simp] theorem setHd_car (s : State) (v : W16) : (setHd s v).car = s.car := rfl
@[simp] theorem setHd_aux (s : State) (v : W16) : (setHd s v).aux = s.aux := rfl
@[simp] theorem setHd_zon (s : State) (v : W16) : (setHd s v).zon = s.zon := rfl
@[simp] theorem setHd_out (s : State) (v : W16) : (setHd s v).out = s.out := rfl
@[simp] theorem setHd_cpu (s : State) (v : W16) : (setHd s v).cpu = s.cpu := rfl
@[simp] theorem setHd_mem (s : State) (v : W16) : (setHd s v).mem = s.mem := rfl
@[simp] theorem setHd_rq (s : State) (v : W16) : (setHd s v).rq = s.rq := rfl
@[simp] theorem setHd_bq (s : State) (v : W16) : (setHd s v).bq = s.bq := rfl
@[simp] theorem setHd_pa (s : State) (v : W16) : (setHd s v).pa = s.pa := rfl
@[simp] theorem setHd_lnk (s : State) (v : W16) : (setHd s v).lnk = s.lnk := rfl
@[simp] theorem setHd_flt (s : State) (v : W16) : (setHd s v).flt = s.flt := rfl
@[simp] theorem setHd_jtag (s : State) (v : W16) : (setHd s v).jtag = s.jtag := rfl
@[simp] theorem setHd_fw (s : State) (v : W16) : (setHd s v).fw = s.fw := rfl
@[simp] theorem setHd_pending (s : State) (v : W16) : (setHd s v).pending = s.pending := rfl

/-! setQueue -/
@[simp] theorem setQueue_pwr (s : State) (bulk : Bool) (f : Queue → Queue) : (setQueue s bulk f).pwr = s.pwr := by cases bulk <;> rfl
@[simp] theorem setQueue_beat (s : State) (bulk : Bool) (f : Queue → Queue) : (setQueue s bulk f).beat = s.beat := by cases bulk <;> rfl
@[simp] theorem setQueue_regs (s : State) (bulk : Bool) (f : Queue → Queue) : (setQueue s bulk f).regs = s.regs := by cases bulk <;> rfl
@[simp] theorem setQueue_ana (s : State) (bulk : Bool) (f : Queue → Queue) : (setQueue s bulk f).ana = s.ana := by cases bulk <;> rfl
@[simp] theorem setQueue_car (s : State) (bulk : Bool) (f : Queue → Queue) : (setQueue s bulk f).car = s.car := by cases bulk <;> rfl
@[simp] theorem setQueue_aux (s : State) (bulk : Bool) (f : Queue → Queue) : (setQueue s bulk f).aux = s.aux := by cases bulk <;> rfl
@[simp] theorem setQueue_zon (s : State) (bulk : Bool) (f : Queue → Queue) : (setQueue s bulk f).zon = s.zon := by cases bulk <;> rfl
@[simp] theorem setQueue_out (s : State) (bulk : Bool) (f : Queue → Queue) : (setQueue s bulk f).out = s.out := by cases bulk <;> rfl
@[simp] theorem setQueue_cpu (s : State) (bulk : Bool) (f : Queue → Queue) : (setQueue s bulk f).cpu = s.cpu := by cases bulk <;> rfl
@[simp] theorem setQueue_mem (s : State) (bulk : Bool) (f : Queue → Queue) : (setQueue s bulk f).mem = s.mem := by cases bulk <;> rfl
@[simp] theorem setQueue_win (s : State) (bulk : Bool) (f : Queue → Queue) : (setQueue s bulk f).win = s.win := by cases bulk <;> rfl
@[simp] theorem setQueue_pa (s : State) (bulk : Bool) (f : Queue → Queue) : (setQueue s bulk f).pa = s.pa := by cases bulk <;> rfl
@[simp] theorem setQueue_lnk (s : State) (bulk : Bool) (f : Queue → Queue) : (setQueue s bulk f).lnk = s.lnk := by cases bulk <;> rfl
@[simp] theorem setQueue_flt (s : State) (bulk : Bool) (f : Queue → Queue) : (setQueue s bulk f).flt = s.flt := by cases bulk <;> rfl
@[simp] theorem setQueue_jtag (s : State) (bulk : Bool) (f : Queue → Queue) : (setQueue s bulk f).jtag = s.jtag := by cases bulk <;> rfl
@[simp] theorem setQueue_fw (s : State) (bulk : Bool) (f : Queue → Queue) : (setQueue s bulk f).fw = s.fw := by cases bulk <;> rfl
@[simp] theorem setQueue_pending (s : State) (bulk : Bool) (f : Queue → Queue) : (setQueue s bulk f).pending = s.pending := by cases bulk <;> rfl

/-! What reading back gives. -/
@[simp] theorem upd_length {β : Type} (l : List β) (i : Nat) (f : β → β) : (upd l i f).length = l.length := by
  simp [upd]
@[simp] theorem getPass_setPass (s : State) (p : Nat) (f : Pass → Pass) (h : p < s.car.passes.length) :
    getPass (setPass s p f) p = f (getPass s p) := by
  simp [getPass, setPass, upd, List.getD_eq_getElem?_getD, h]

end Sys2Proof.Machine
end

