-- ==== Sys2Proof/Laws/Sparse.lean ====
section
/-! SUPPORT. Sparse storage: what reading after writing gives, and that every operation keeps the canonical form. -/
namespace Sys2Proof.Machine

section
variable {β : Type} [DecidableEq β] {d : Nat → β}

theorem swfFrom_mono {lo lo' : Nat} (h : lo' ≤ lo) : ∀ {m : List (Nat × β)}, swfFrom d lo m = true → swfFrom d lo' m = true
  | [], _ => rfl
  | (k, v) :: t, w => by
    simp only [swfFrom, Bool.and_eq_true, decide_eq_true_eq] at w ⊢
    exact ⟨⟨by omega, w.1.2⟩, w.2⟩

theorem swfFrom_sset {a : Nat} {v : β} : ∀ {lo : Nat} {m : List (Nat × β)}, lo ≤ a → swfFrom d lo m = true →
    swfFrom d lo (sset d m a v) = true
  | lo, [], h, _ => by
    unfold sset
    split
    · rfl
    · rename_i hv; simp [swfFrom, h, hv]
  | lo, (k, w) :: t, h, hw => by
    simp only [swfFrom, Bool.and_eq_true, decide_eq_true_eq] at hw
    obtain ⟨⟨hk, hd⟩, ht⟩ := hw
    unfold sset
    split
    · rename_i hka
      simp [swfFrom, hk, hd, swfFrom_sset (v := v) (show k + 1 ≤ a from hka) ht]
    · split
      · rename_i hka
        split
        · exact swfFrom_mono (by omega) ht
        · rename_i hv; subst hka; simp [swfFrom, h, hv, ht]
      · rename_i h1 h2
        split
        · simp [swfFrom, hk, hd, ht]
        · rename_i hv; simp [swfFrom, h, hv, hd, ht]; omega

/-- A write keeps the canonical form. -/
theorem swf_sset {m : List (Nat × β)} (a : Nat) (v : β) (h : swf d m = true) : swf d (sset d m a v) = true :=
  swfFrom_sset (Nat.zero_le a) h

theorem swfFrom_filter (p : Nat × β → Bool) : ∀ {lo : Nat} {m : List (Nat × β)}, swfFrom d lo m = true → swfFrom d lo (m.filter p) = true
  | _, [], _ => rfl
  | lo, (k, w) :: t, h => by
    simp only [swfFrom, Bool.and_eq_true, decide_eq_true_eq] at h
    obtain ⟨⟨hk, hd⟩, ht⟩ := h
    have ih := swfFrom_filter p ht
    rw [List.filter_cons]
    split
    · simp [swfFrom, hk, hd, ih]
    · exact swfFrom_mono (by omega) ih

/-- Dropping entries keeps the canonical form. -/
theorem swf_filter (p : Nat × β → Bool) {m : List (Nat × β)} (h : swf d m = true) : swf d (m.filter p) = true := swfFrom_filter p h

theorem swf_sclear (lo hi : Nat) {m : List (Nat × β)} (h : swf d m = true) : swf d (sclear lo hi m) = true := swf_filter _ h

@[simp] theorem swf_nil : swf d ([] : List (Nat × β)) = true := rfl

/-- Below every listed key, storage reads its default. -/
theorem sget_below {a : Nat} : ∀ {lo : Nat} {m : List (Nat × β)}, swfFrom d lo m = true → a < lo → sget d m a = d a
  | _, [], _, _ => rfl
  | lo, (k, v) :: t, h, ha => by
    simp only [swfFrom, Bool.and_eq_true, decide_eq_true_eq] at h
    have h1 : ¬ k = a := by omega
    have h2 : a < k := by omega
    simp [sget, h1, h2]

theorem sget_sset_same {a : Nat} {v : β} : ∀ {lo : Nat} {m : List (Nat × β)}, swfFrom d lo m = true → sget d (sset d m a v) a = v
  | _, [], _ => by
    unfold sset; split
    · rename_i h; simp [sget, h]
    · simp [sget]
  | lo, (k, w) :: t, h => by
    simp only [swfFrom, Bool.and_eq_true, decide_eq_true_eq] at h
    unfold sset
    split
    · have h1 : ¬ k = a := by omega
      have h2 : ¬ a < k := by omega
      simp [sget, h1, h2, sget_sset_same h.2]
    · split
      · split
        · rename_i hka hv
          rw [sget_below h.2 (by omega), hv]
        · simp [sget]
      · have h1 : ¬ k = a := by assumption
        have h2 : a < k := by omega
        split
        · rename_i hv; simp [sget, h1, h2, hv]
        · simp [sget]

theorem sget_sset_other {a b : Nat} {v : β} (hab : b ≠ a) : ∀ {lo : Nat} {m : List (Nat × β)}, swfFrom d lo m = true →
    sget d (sset d m a v) b = sget d m b
  | _, [], _ => by
    unfold sset; split
    · rfl
    · simp [sget, Ne.symm hab]
  | lo, (k, w) :: t, h => by
    simp only [swfFrom, Bool.and_eq_true, decide_eq_true_eq] at h
    unfold sset
    split
    · simp only [sget, sget_sset_other hab h.2]
    · split
      · rename_i hka
        subst hka
        split
        · simp only [sget, if_neg (Ne.symm hab)]
          split
          · rw [sget_below h.2 (by omega)]
          · rfl
        · simp [sget, Ne.symm hab]
      · split
        · rfl
        · simp only [sget, if_neg (Ne.symm hab)]
          by_cases hb : b < a
          · have h1 : ¬ k = b := by omega
            have h2 : b < k := by omega
            simp [hb, h1, h2]
          · simp [hb]

/-- A read after a write to the same address gives the value written. -/
theorem sget_write_same {m : List (Nat × β)} (h : swf d m = true) (a : Nat) (v : β) : sget d (sset d m a v) a = v := sget_sset_same h

/-- A write leaves every other address alone. -/
theorem sget_write_other {m : List (Nat × β)} (h : swf d m = true) {a b : Nat} (v : β) (hab : b ≠ a) :
    sget d (sset d m a v) b = sget d m b := sget_sset_other hab h

end

/-! ### The memory operations keep the canonical form (R206) -/

theorem wr8_wf (s : State) (a : Nat) (v : Byte) (h : s.mem.wf = true) : (wr8 s a v).mem.wf = true := swf_sset a v h
theorem wr16_wf (s : State) (a : Nat) (v : W16) (h : s.mem.wf = true) : (wr16 s a v).mem.wf = true := wr8_wf _ _ _ (wr8_wf _ _ _ h)
theorem wr32_wf (s : State) (a : Nat) (v : W32) (h : s.mem.wf = true) : (wr32 s a v).mem.wf = true := wr16_wf _ _ _ (wr16_wf _ _ _ h)
theorem foldl_wr8_wf : ∀ (l : List (Byte × Nat)) (s : State), s.mem.wf = true → (l.foldl (fun s e => wr8 s e.2 e.1) s).mem.wf = true
  | [], _, h => h
  | e :: t, s, h => foldl_wr8_wf t _ (wr8_wf s e.2 e.1 h)
theorem wrBytes_wf (s : State) (a : Nat) (bs : List Byte) (h : s.mem.wf = true) : (wrBytes s a bs).mem.wf = true :=
  foldl_wr8_wf (bs.zipIdx a) s h
theorem clearMem_wf (s : State) (lo hi : Nat) (h : s.mem.wf = true) : (clearMem s lo hi).mem.wf = true := swf_sclear lo hi h

/-- Reset leaves every storage in its canonical form. -/
theorem reset_mem_wf : State.reset.mem.wf = true := rfl

/-- A byte reads as written, and every other byte reads as before. -/
theorem rd8_wr8_same (s : State) (a : Nat) (v : Byte) (h : s.mem.wf = true) : rd8 (wr8 s a v) a = v := sget_write_same h a v
theorem rd8_wr8_other (s : State) {a b : Nat} (v : Byte) (h : s.mem.wf = true) (hab : b ≠ a) : rd8 (wr8 s a v) b = rd8 s b :=
  sget_write_other h v hab

/-- A register word staged or put in force reads so, and no other changes. -/
theorem stg_setStaged_same (s : State) (k : Nat) (v : W16) (h : swf regReset s.regs.staged = true) : stg (setStaged s k v) k = v :=
  sget_write_same h k v
theorem stg_setStaged_other (s : State) {k j : Nat} (v : W16) (h : swf regReset s.regs.staged = true) (hj : j ≠ k) :
    stg (setStaged s k v) j = stg s j := sget_write_other h v hj
theorem reg_setForce_same (s : State) (k : Nat) (v : W16) (h : swf regReset s.regs.force = true) : reg (setForce s k v) k = v :=
  sget_write_same h k v
theorem reg_setForce_other (s : State) {k j : Nat} (v : W16) (h : swf regReset s.regs.force = true) (hj : j ≠ k) :
    reg (setForce s k v) j = reg s j := sget_write_other h v hj

end Sys2Proof.Machine
end

