-- ==== Sys2Proof/Laws/Ops.lean ====
section
/-! SUPPORT. One statement per shared operation of what it does: reading back an element, bits and fields, the event log, interrupts,
containment, permits, access by registers, zones and passes seated anew, ports and queues, and what waits. A proof cites these and does not unfold. -/
namespace Sys2Proof.Machine

/-! ### Elements -/

theorem upd_getD_same {β : Type} (l : List β) (i : Nat) (f : β → β) (d : β) (h : i < l.length) : (upd l i f).getD i d = f (l.getD i d) := by
  simp [upd, List.getD_eq_getElem?_getD, h]
theorem upd_getD_other {β : Type} (l : List β) {i j : Nat} (f : β → β) (d : β) (h : j ≠ i) : (upd l i f).getD j d = l.getD j d := by
  simp [upd, List.getD_eq_getElem?_getD, Ne.symm h]

theorem getPass_setPass_other (s : State) {p q : Nat} (f : Pass → Pass) (h : q ≠ p) : getPass (setPass s p f) q = getPass s q :=
  upd_getD_other _ _ _ h
theorem getZone_setZone (s : State) (z : Nat) (f : Zone → Zone) (h : z < s.zon.zones.length) : getZone (setZone s z f) z = f (getZone s z) :=
  upd_getD_same _ _ _ _ h
theorem getZone_setZone_other (s : State) {z w : Nat} (f : Zone → Zone) (h : w ≠ z) : getZone (setZone s z f) w = getZone s w :=
  upd_getD_other _ _ _ h
theorem getPermit_setPermit (s : State) (k : Nat) (f : Permit → Permit) (h : k < s.out.permits.length) :
    getPermit (setPermit s k f) k = f (getPermit s k) := upd_getD_same _ _ _ _ h
theorem getPermit_setPermit_other (s : State) {k j : Nat} (f : Permit → Permit) (h : j ≠ k) :
    getPermit (setPermit s k f) j = getPermit s j := upd_getD_other _ _ _ h
theorem getLamp_setLamp (s : State) (k : Nat) (f : Lamp → Lamp) (h : k < s.out.lamps.length) : getLamp (setLamp s k f) k = f (getLamp s k) :=
  upd_getD_same _ _ _ _ h
theorem getLamp_setLamp_other (s : State) {k j : Nat} (f : Lamp → Lamp) (h : j ≠ k) : getLamp (setLamp s k f) j = getLamp s j :=
  upd_getD_other _ _ _ h
theorem getPort_setPort (s : State) (k : Nat) (f : Port → Port) (h : k < s.lnk.ports.length) : getPort (setPort s k f) k = f (getPort s k) :=
  upd_getD_same _ _ _ _ h
theorem getPort_setPort_other (s : State) {k j : Nat} (f : Port → Port) (h : j ≠ k) : getPort (setPort s k f) j = getPort s j :=
  upd_getD_other _ _ _ h
theorem getAmp_setAmp (s : State) (a : Nat) (f : Amp → Amp) (h : a < s.ana.amps.length) : getAmp (setAmp s a f) a = f (getAmp s a) :=
  upd_getD_same _ _ _ _ h
theorem getAmp_setAmp_other (s : State) {a b : Nat} (f : Amp → Amp) (h : b ≠ a) : getAmp (setAmp s a f) b = getAmp s b :=
  upd_getD_other _ _ _ h
theorem getSyn_setSyn (s : State) (k : Nat) (f : Syn → Syn) (h : k < s.car.syn.length) : getSyn (setSyn s k f) k = f (getSyn s k) :=
  upd_getD_same _ _ _ _ h
theorem getSyn_setSyn_other (s : State) {k j : Nat} (f : Syn → Syn) (h : j ≠ k) : getSyn (setSyn s k f) j = getSyn s j :=
  upd_getD_other _ _ _ h
@[simp] theorem getQueue_setQueue (s : State) (b : Bool) (f : Queue → Queue) : getQueue (setQueue s b f) b = f (getQueue s b) := by
  cases b <;> rfl
theorem getQueue_setQueue_other (s : State) {b c : Bool} (f : Queue → Queue) (h : c ≠ b) : getQueue (setQueue s b f) c = getQueue s c := by
  cases b <;> cases c <;> first | rfl | exact absurd rfl h

/-! ### Bits and counters -/

theorem bit_putBit_same {n : Nat} (w : BitVec n) (i : Nat) (b : Bool) (h : i < n) : bit (putBit w i b) i = b := by
  unfold bit putBit; cases b <;> simp [h]
theorem bit_putBit_other {n : Nat} (w : BitVec n) {i j : Nat} (b : Bool) (h : j ≠ i) : bit (putBit w i b) j = bit w j := by
  unfold bit putBit
  cases b
  · simp [BitVec.getLsbD_shiftLeft]; intro hw; have := BitVec.lt_of_getLsbD hw; omega
  · simp [BitVec.getLsbD_shiftLeft]; omega
theorem limit_range (lo hi x : Int) (h : lo ≤ hi) : lo ≤ limit lo hi x ∧ limit lo hi x ≤ hi := by
  unfold limit; split
  · omega
  · split <;> omega
theorem limit_id {lo hi x : Int} (h1 : lo ≤ x) (h2 : x ≤ hi) : limit lo hi x = x := by
  unfold limit; split
  · omega
  · split <;> omega
theorem satInc_toNat (c : W16) : (satInc c).toNat = min 65535 (c.toNat + 1) := by
  unfold satInc; split
  · next h => subst h; rfl
  · next h =>
    have h1 : c.toNat ≠ 65535 := fun e => h (BitVec.eq_of_toNat_eq e)
    have h2 := c.isLt
    simp only [BitVec.toNat_add]; simp; omega

/-! ### Interrupts and the event log (R267, R378, R379) -/

theorem raise_spec (s : State) (b : Nat) :
    raise s b = { s with pwr := { s.pwr with irqstat := putBit s.pwr.irqstat b true } } := rfl
@[simp] theorem logEv_logcount (s : State) (kind unit : Nat) (d : W16) : (logEv s kind unit d).flt.logcount = s.flt.logcount + 1 := rfl

/-- An entry fills one slot; the others, and everything outside the log, stay. -/
theorem logEv_spec (s : State) (kind unit : Nat) (d : W16) (h : s.flt.log.length = 64) :
    (logEv s kind unit d) = { s with flt := { s.flt with
        log := (logEv s kind unit d).flt.log, logcount := s.flt.logcount + 1, loglost := (logEv s kind unit d).flt.loglost } }
    ∧ (logEv s kind unit d).flt.log.getD (s.flt.logcount.toNat % 64) none
      = some ⟨BitVec.ofNat 8 kind, BitVec.ofNat 8 unit, d, s.beat.no, phaseNow s, s.beat.frameSeq, s.flt.logcount, s.beat.epoch, false⟩
    ∧ (∀ j, j ≠ s.flt.logcount.toNat % 64 → (logEv s kind unit d).flt.log.getD j none = s.flt.log.getD j none)
    ∧ (logEv s kind unit d).flt.log.length = 64 := by
  refine ⟨rfl, ?_, ?_, ?_⟩
  · exact upd_getD_same _ _ _ _ (by rw [h]; exact Nat.mod_lt _ (by decide))
  · intro j hj; exact upd_getD_other _ _ _ hj
  · simp [logEv, h]

theorem foldl_logEv_spec : ∀ (l : List (Nat × Nat × W16)) (s : State),
    ∃ t, l.foldl (fun s e => logEv s e.1 e.2.1 e.2.2) s = { s with flt := t } ∧ t.logcount = s.flt.logcount + BitVec.ofNat _ l.length
  | [], s => ⟨s.flt, rfl, by simp⟩
  | e :: l, s => by
    obtain ⟨t, h1, h2⟩ := foldl_logEv_spec l (logEv s e.1 e.2.1 e.2.2)
    refine ⟨t, by simpa using h1, ?_⟩
    rw [h2, logEv_logcount, List.length_cons, BitVec.add_assoc]
    congr 1
    apply BitVec.eq_of_toNat_eq
    simp [Nat.add_comm]

theorem length_insertEv (e : Nat × Nat × W16) : ∀ l : List (Nat × Nat × W16), (insertEv e l).length = l.length + 1
  | [] => rfl
  | x :: t => by
    unfold insertEv; split
    · rfl
    · simp [length_insertEv e t]

/-- Several entries of one clock: only the log changes, by one entry each. -/
theorem logAll_spec (s : State) (evs : List (Nat × Nat × W16)) :
    ∃ t, logAll s evs = { s with flt := t } ∧ t.logcount = s.flt.logcount + BitVec.ofNat _ evs.length := by
  obtain ⟨t, h1, h2⟩ := foldl_logEv_spec (evs.foldr insertEv []) s
  refine ⟨t, h1, ?_⟩
  rw [h2]
  have : ∀ l : List (Nat × Nat × W16), (l.foldr insertEv []).length = l.length := by
    intro l; induction l with
    | nil => rfl
    | cons a l ih => simp [length_insertEv, ih]
  rw [this]

/-! ### Containment (R365, R366, R367) -/

/-- A fencing writes one entry and sets IRQSTAT.FENCE. -/
theorem fenceNote_spec (s : State) (kind unit : Nat) (d : W16) :
    fenceNote s kind unit d = { s with
      flt := (logEv s kind unit d).flt, pwr := { s.pwr with irqstat := putBit s.pwr.irqstat 0 true } } := rfl
/-- A unit that faults again while fenced: only its test and its scheduled unfence are touched. -/
theorem refault_spec (s : State) (cls idx : Nat) :
    ∃ a b, refault s cls idx = { s with flt := { s.flt with stale := a, pending := b } } := ⟨_, _, rfl⟩

theorem fenceAmp_spec (s : State) (a : Nat) :
    (fenceAmp s a).ana = { s.ana with ampFen := putBit s.ana.ampFen a true } ∨ bit s.ana.ampFen a = true ∧ (fenceAmp s a).ana = s.ana := by
  unfold fenceAmp; split
  · exact .inr ⟨‹_›, rfl⟩
  · exact .inl rfl
theorem fenceElec_spec (s : State) (e : Nat) :
    (fenceElec s e).ana = { s.ana with elFen := putBit s.ana.elFen e true } ∨ bit s.ana.elFen e = true ∧ (fenceElec s e).ana = s.ana := by
  unfold fenceElec; split
  · exact .inr ⟨‹_›, rfl⟩
  · exact .inl rfl
theorem fenceShd_spec (s : State) (k : Nat) :
    (fenceShd s k).ana = { s.ana with shdFen := putBit s.ana.shdFen k true } ∨ bit s.ana.shdFen k = true ∧ (fenceShd s k).ana = s.ana := by
  unfold fenceShd; split
  · exact .inr ⟨‹_›, rfl⟩
  · exact .inl rfl
theorem fencePipe_spec (s : State) (p : Nat) (why : W16) (h : p < s.car.passes.length) : (getPass (fencePipe s p why) p).pipeFen = true := by
  unfold fencePipe; split
  · assumption
  · show (getPass (setPass s p (fun x => { x with pipeFen := true, pipe := none, saved := [] })) p).pipeFen = true
    rw [getPass_setPass _ _ _ h]
theorem unheld_of (s t : State) (h : s.jtag.ir ≠ .extest) : unheld s t = t := by unfold unheld; rw [if_neg h]
theorem unheld_held (s t : State) (h : s.jtag.ir = .extest) : unheld s t = s := by unfold unheld; rw [if_pos h]
theorem carClk_of (s : State) (h : s.jtag.ir ≠ .extest) : carClk s = s.beat.clk := by simp [carClk, h]
theorem carClk_held (s : State) (h : s.jtag.ir = .extest) : carClk s = s.jtag.heldClk := by simp [carClk, h]
theorem fenceZone_held (s : State) (z word : Nat) (h : s.jtag.ir = .extest) : fenceZone s z word = s := unheld_held _ _ h
theorem fenceZone_spec (s : State) (z word : Nat) (h : z < s.zon.zones.length) (hx : s.jtag.ir ≠ .extest) :
    (getZone (fenceZone s z word) z).fen = true := by
  unfold fenceZone; rw [unheld_of _ _ hx]; split
  · assumption
  · show (getZone (setZone s z (fun x => { x with fen := true })) z).fen = true
    rw [getZone_setZone _ _ _ h]

/-! ### Entries of one clock (R379) -/

/-- Where nothing has been written, nothing is put in order. -/
theorem logOrder_same (s : State) (n : W16) (h : s.flt.logcount = n) : logOrder s n = s := by
  have h0 : logSince s n = [] := by simp [logSince, h]
  simp [logOrder, h0]
@[simp] theorem logOrder_logcount (s : State) (n : W16) : (logOrder s n).flt.logcount = s.flt.logcount := rfl
@[simp] theorem logOrder_car (s : State) (n : W16) : (logOrder s n).car = s.car := rfl
@[simp] theorem logOrder_mem (s : State) (n : W16) : (logOrder s n).mem = s.mem := rfl
@[simp] theorem logOrder_pwr (s : State) (n : W16) : (logOrder s n).pwr = s.pwr := rfl
@[simp] theorem logOrder_out (s : State) (n : W16) : (logOrder s n).out = s.out := rfl
@[simp] theorem logOrder_zon (s : State) (n : W16) : (logOrder s n).zon = s.zon := rfl
@[simp] theorem logOrder_cpu (s : State) (n : W16) : (logOrder s n).cpu = s.cpu := rfl
@[simp] theorem logOrder_lnk (s : State) (n : W16) : (logOrder s n).lnk = s.lnk := rfl
@[simp] theorem logOrder_regs (s : State) (n : W16) : (logOrder s n).regs = s.regs := rfl
@[simp] theorem logOrder_pending (s : State) (n : W16) : (logOrder s n).pending = s.pending := rfl

/-! ### Permits commanded OFF (R192, R193, R199) -/

theorem permitOff_frame (s : State) (k : Nat) : ∃ ps, permitOff s k = { s with out := { s.out with permits := ps } } := by
  unfold permitOff; split
  · exact ⟨_, rfl⟩
  · exact ⟨s.out.permits, rfl⟩
@[simp] theorem permitOff_length (s : State) (k : Nat) : (permitOff s k).out.permits.length = s.out.permits.length := by
  unfold permitOff; split
  · simp [setPermit]
  · rfl
theorem getPermit_map_drop (s : State) (k j : Nat) :
    (getPermit { s with out := { s.out with permits := s.out.permits.map (dropPartner k) } } j).cmd = (getPermit s j).cmd := by
  simp only [getPermit, List.getD_eq_getElem?_getD, List.getElem?_map]
  cases s.out.permits[j]? <;> rfl
/-- Permit k is OFF after; the command of every other permit stands. -/
theorem permitOff_cmd (s : State) (k j : Nat) : (getPermit (permitOff s k) j).cmd = (decide (j ≠ k) && (getPermit s j).cmd) := by
  unfold permitOff; split
  · by_cases hj : j = k
    · subst hj
      by_cases hl : j < s.out.permits.length
      · rw [getPermit_setPermit _ _ _ (by simpa using hl)]; simp
      · next h =>
        exfalso
        have : getPermit s j = {} := by simp [getPermit, List.getD_eq_getElem?_getD, List.getElem?_eq_none (Nat.le_of_not_lt hl)]
        rw [this] at h; cases h
    · rw [getPermit_setPermit_other _ _ hj, getPermit_map_drop]; simp [hj]
  · next h =>
    by_cases hj : j = k
    · subst hj; simpa using h
    · simp [hj]
theorem permitsOff_frame (s : State) : ∃ ps, permitsOff s = { s with out := { s.out with permits := ps } } := by
  obtain ⟨a, ha⟩ := permitOff_frame s 0
  obtain ⟨b, hb⟩ := permitOff_frame (permitOff s 0) 1
  obtain ⟨c, hc⟩ := permitOff_frame (permitOff (permitOff s 0) 1) 2
  obtain ⟨d, hd⟩ := permitOff_frame (permitOff (permitOff (permitOff s 0) 1) 2) 3
  exact ⟨d, by show permitOff (permitOff (permitOff (permitOff s 0) 1) 2) 3 = _; rw [hd, hc, hb, ha]⟩
/-- No permit is commanded ON after. -/
theorem permitsOff_cmd (s : State) (k : Fin 4) : (getPermit (permitsOff s) k).cmd = false := by
  show (getPermit (permitOff (permitOff (permitOff (permitOff s 0) 1) 2) 3) k).cmd = false
  simp only [permitOff_cmd]
  match k with
  | 0 => rfl
  | 1 => rfl
  | 2 => rfl
  | 3 => rfl

/-! ### Access by registers (R258, R268, R276) -/

theorem hostWrites_run (s : State) (f : State → State) (h1 : hostAnswers s = true) (h2 : inRun s = true) : hostWrites s f = f (settle s) := by
  simp [hostWrites, h1, h2]
theorem hostWrites_boot (s : State) (f : State → State) (h1 : hostAnswers s = true) (h2 : inRun s = false) :
    hostWrites s f = bootWritten (settle s) := by simp [hostWrites, h1, h2]
theorem hostWrites_dead (s : State) (f : State → State) (h : hostAnswers s = false) : hostWrites s f = s := by simp [hostWrites, h]
theorem cfgWrites_open (s : State) (f : State → State) (h : spaceOpen s = true) : cfgWrites s f = f s := by simp [cfgWrites, h]
theorem cfgWrites_shut (s : State) (f : State → State) (h : spaceOpen s = false) : cfgWrites s f = s := by simp [cfgWrites, h]

/-- R8, R30: a write stages its RW bits; what is in force changes only in the bits that act at the access. -/
theorem plainWrite_staged (s : State) (k : Nat) (v : W16) (h : swf regReset s.regs.staged = true) :
    stg (plainWrite s k v) k = v &&& regMask k ∧ (∀ j, j ≠ k → stg (plainWrite s k v) j = stg s j) := by
  have e : ∀ j, stg (plainWrite s k v) j = stg (setStaged s k (v &&& regMask k)) j := by
    intro j; unfold plainWrite stage; dsimp only; split
    · rfl
    · split <;> rfl
  exact ⟨by rw [e, stg_setStaged_same _ _ _ h], fun j hj => by rw [e, stg_setStaged_other _ _ h hj]⟩
theorem plainWrite_force_other (s : State) {k j : Nat} (v : W16) (h : swf regReset s.regs.force = true) (hj : j ≠ k) :
    reg (plainWrite s k v) j = reg s j := by
  unfold plainWrite stage; dsimp only; split
  · exact reg_setForce_other _ _ h hj
  · split
    · rfl
    · exact reg_setForce_other _ _ h hj

/-! ### Seated anew (R110, R185) -/

theorem seatZone_fixed (s : State) (z : Nat) (h : rbit (reg s) (0x4800 + 16 * z) 15 = true) : seatZone s z = s := by simp [seatZone, h]
theorem seatZone_held (s : State) (z : Nat) (h : s.jtag.ir = .extest) : seatZone s z = s := by simp [seatZone, unheld, h]
theorem seatZone_tracked (s : State) (z : Nat) (h : rbit (reg s) (0x4800 + 16 * z) 15 = false) (hx : s.jtag.ir ≠ .extest) :
    seatZone s z = setZone s z (fun x => { x with bvalid := false, evals := 0, tcnt := 0, rcnt := 0 }) := by simp [seatZone, h, unheld, hx]

/-! ### Ports (R267, R313) -/

theorem portSt_same (s : State) (k : Nat) {st : PortSt} (h : (getPort s k).st = st) : portSt s k st = s := by simp [portSt, h]
theorem portSt_change (s : State) (k : Nat) (st : PortSt) (h : (getPort s k).st ≠ st) :
    portSt s k st = raise (setPort s k (fun p => { p with st := st })) 11 := by simp [portSt, h]
theorem portSt_st (s : State) (k : Nat) (st : PortSt) (h : k < s.lnk.ports.length) : (getPort (portSt s k st) k).st = st := by
  by_cases e : (getPort s k).st = st
  · rw [portSt_same s k e]; exact e
  · rw [portSt_change s k st e]
    show (getPort (setPort s k (fun p => { p with st := st })) k).st = st
    rw [getPort_setPort _ _ _ h]
theorem nextSeq_ne_zero (n : Byte) : nextSeq n ≠ 0 := by revert n; decide
theorem putDown_down (s : State) (k : Nat) (p : Parcel) (h : k < s.lnk.ports.length) :
    (getPort (putDown s k p) k).down = (getPort s k).down ++ [p] := by rw [putDown, getPort_setPort _ _ _ h]
theorem pendUpdate_frame (s : State) :
    ∃ p d i, pendUpdate s = { s with beat := { s.beat with pend := p, done := d }, pwr := { s.pwr with irqstat := i } } := by
  unfold pendUpdate; split
  · exact ⟨_, _, _, rfl⟩
  · split
    · unfold fenceDone; split <;> exact ⟨_, _, _, rfl⟩
    · exact ⟨_, _, _, rfl⟩
/-- R267, R273: after, EPOCH.DONE is 1; FENCEDONE is set where it was 0. -/
theorem fenceDone_spec (s : State) : (fenceDone s).beat = { s.beat with done := true }
    ∧ (s.beat.done = true → fenceDone s = s) ∧ (s.beat.done = false → bit (fenceDone s).pwr.irqstat 4 = true) := by
  unfold fenceDone; split
  · next h => exact ⟨by rw [← h], fun _ => rfl, fun g => by rw [g] at h; cases h⟩
  · next h => exact ⟨rfl, fun g => absurd g h, fun _ => by simp [raise, bit, putBit]⟩

/-! ### Queues (R281 to R295) -/

theorem qTake_room (bulk : Bool) (q : Queue) (bs : List Byte) (h : (packet q.drop bs).length ≤ qCapacity bulk - qCount q) :
    qTake bulk q bs = { q with writing := packet q.drop bs, drop := 0 } := by
  simp [qTake, Nat.not_lt.mpr h]
theorem qTake_full (bulk : Bool) (q : Queue) (bs : List Byte) (h : qCapacity bulk - qCount q < (packet q.drop bs).length) :
    qTake bulk q bs = { addDrop q 1 with loss := satInc q.loss } := by simp [qTake, h]
/-- What is written and what is still to write are together what there was. -/
theorem qWrite_words (bulk : Bool) (q : Queue) (n : Nat) : (qWrite bulk q n).words ++ (qWrite bulk q n).writing = q.words ++ q.writing := by
  simp [qWrite]
theorem addDrop_le (q : Queue) (n : Nat) : (addDrop q n).drop ≤ 0x7FFF := Nat.min_le_left _ _

/-! ### Reads of a pipeline, and what waits (R109, R252, R257, R276) -/

theorem readThen_clean (s : State) (spans : List (Nat × Nat)) (f : State → State) (h : spans.any (fun x => granBad s x.1 x.2) = false) :
    readThen s spans f = f (spans.foldl (fun s x => granRead s x.1 x.2) s) := by simp [readThen, h]
theorem readThen_bad (s : State) (spans : List (Nat × Nat)) (f : State → State) (h : spans.any (fun x => granBad s x.1 x.2) = true) :
    readThen s spans f = spans.foldl (fun s x => granRead s x.1 x.2) s := by simp [readThen, h]
/-- R257: without a store that waits, an idle step is one SENSE clock and nothing else. -/
theorem idle_tick (s : State) (h : (tick s).pa.late = []) : idle s = tick s := by simp [idle, lateDrain, h]
theorem coreTry_stopped (s : State) (h : coreRuns s = false) : coreTry s = coreStop s := by simp [coreTry, coreMayStop, h]
theorem spaceGate_awake (s : State) (h1 : s.pwr.boot ≠ .hostload) (h2 : s.pwr.mode ≠ .hold) (h3 : s.pwr.mode ≠ .dormant) : spaceGate s = none := by
  simp [spaceGate, h1, h2, h3]
theorem hostSpace_awake (s : State) (f g : State → State) (h1 : s.pwr.boot ≠ .hostload) (h2 : s.pwr.mode ≠ .hold) (h3 : s.pwr.mode ≠ .dormant) :
    hostSpace s f g = f (settle s) := by simp [hostSpace, spaceGate_awake s h1 h2 h3]
theorem settle_none (s : State) (h : s.win.held = none) : settle s = s := by simp [settle, h]

end Sys2Proof.Machine
end

