-- ==== Sys2Proof/Laws/Carud.lean ====
section
/-! SUPPORT. What the shared operations of Carud do: predicates, address registers, loop ends, and each way one instruction can go. -/
namespace Sys2Proof.Machine

/-! ### Predicates and address registers (R217, R222) -/

theorem predOf_setPred_same (c : Carud) {k : Nat} (v : Bool) (h0 : k ≠ 0) (h : k < 8) : predOf (setPred c k v) k = v := by
  simp only [predOf, setPred, if_neg h0]
  rw [bit_putBit_same _ _ _ h]; simp [h0]
theorem predOf_setPred_other (c : Carud) {j k : Nat} (v : Bool) (h : j ≠ k) : predOf (setPred c k v) j = predOf c j := by
  unfold setPred; split
  · rfl
  · simp only [predOf]; rw [bit_putBit_other _ _ h]
theorem setPred_zero (c : Carud) (v : Bool) : setPred c 0 v = c := rfl
theorem predOf_zero (c : Carud) : predOf c 0 = true := rfl

theorem areg_putAreg_same (s : State) (n : Fin 16) (v : W32) (h : s.cpu.a.length = 16) : areg (putAreg s n v) n = v :=
  upd_getD_same _ _ _ _ (by rw [h]; exact n.isLt)
theorem areg_putAreg_other (s : State) {n m : Fin 16} (v : W32) (h : m ≠ n) : areg (putAreg s n v) m = areg s m :=
  upd_getD_other _ _ _ (fun e => h (Fin.ext e))
theorem putAreg_spec (s : State) (n : Fin 16) (v : W32) :
    ∃ a, putAreg s n v = { s with cpu := { s.cpu with a := a } } ∧ a.length = s.cpu.a.length := ⟨_, rfl, by simp⟩

theorem circStep_spec (s : State) (n : Fin 16) (c : Nat) (k : Int) :
    ∃ a m, circStep s n c k = { s with cpu := { s.cpu with a := a }, beat := { s.beat with free := m } } ∧ a.length = s.cpu.a.length := by
  unfold circStep; dsimp only; split
  · exact ⟨_, s.beat.free, rfl, by simp⟩
  · exact ⟨_, _, rfl, by simp [draw]⟩

/-- The register update of an operand touches address registers, and the free-value count when a CIRC condition is broken. -/
theorem opdUpdate_spec (size : Nat) (s : State) (o : Opd) :
    ∃ a n, opdUpdate size s o = { s with cpu := { s.cpu with a := a }, beat := { s.beat with free := n } } ∧ a.length = s.cpu.a.length := by
  cases o <;> try exact ⟨_, s.beat.free, rfl, rfl⟩
  case pinc n k => exact ⟨_, s.beat.free, rfl, by simp⟩
  case pdec n k => exact ⟨_, s.beat.free, rfl, by simp⟩
  case circ n c k => exact circStep_spec s n c _
  case node n f a dt dr =>
    cases a
    · exact ⟨_, s.beat.free, rfl, rfl⟩
    · exact ⟨_, s.beat.free, rfl, by simp⟩

/-! ### Values (R218) -/

theorem readLoc_val (c : Ctx) (v : BitVec 64) (h : IHdr) : readLoc c (.val v) h = .ok (v.setWidth 32, c) := rfl
theorem readLoc_reg (c : Ctx) (n : Fin 16) (h : IHdr) : readLoc c (.reg n) h = .ok (extend h.sz h.u ((areg c.s n).setWidth 64), c) := rfl

/-- A read of plain memory whose words are all correctable: the bytes, and no state but the corrected words and their count. -/
theorem accRead_mem (c : Ctx) (a size : Nat) (r : Region) (h1 : accessFault c.s a size = none) (h2 : regionOf a = some r)
    (h3 : isPeripheral r = false) (h4 : r ≠ .block) (h5 : badWord c.s a size = none) :
    accRead c a size = .ok (memBytes c.s a size, { c with s := softFix c.s a size, reads := a :: c.reads }) := by
  unfold accRead; rw [h1, h2]
  cases r <;> first | exact absurd rfl h4 | exact absurd h3 (by decide) | (simp only [isPeripheral, h5]; rfl)
theorem accRead_fault (c : Ctx) (a size d : Nat) (h : accessFault c.s a size = some d) :
    accRead c a size = .error { v := 2, detail := d, adr := some (BitVec.ofNat 32 a) } := by
  unfold accRead; rw [h]

/-! ### Loop ends (R233, R234) -/

theorem loopEnd_none (c : Carud) (next : W16) (h : atLoopEnd c = false) : loopEnd c next = { c with pc := next } := by simp [loopEnd, h]
theorem loopEnd_again (c : Carud) (next : W16) (h : atLoopEnd c = true) (h1 : 1 < (listAt c.lpc (c.lpdepth - 1)).toNat) :
    loopEnd c next = { c with
      lpc := upd c.lpc (c.lpdepth - 1) (fun x => x - 1), pc := w16 ((listAt c.lps (c.lpdepth - 1)).toNat / 4) } := by
  simp [loopEnd, h, h1]
theorem loopEnd_last (c : Carud) (next : W16) (h : atLoopEnd c = true) (h1 : (listAt c.lpc (c.lpdepth - 1)).toNat ≤ 1) :
    loopEnd c next = { c with lpdepth := c.lpdepth - 1, pc := next } := by
  simp [loopEnd, h, Nat.not_lt.mpr h1]

/-- R298: nothing waits, and Carud has nothing to make up. -/
theorem lateDrain_none (s : State) (h : s.pa.late = []) : lateDrain s = s := by simp [lateDrain, h]

/-! ### One instruction (R219, R222, R238 to R245): each way it can go -/

section
variable (s : State) (h : IHdr) (len : Nat) (check : Option Trap) (body : Except Trap Done)

theorem carudStep_halted (h0 : carudActs s = false) : carudStep s h len check body = lateDrain s := by simp [carudStep, h0]
theorem carudStep_event (h0 : carudActs s = true) (h1 : eventDue s = true) : carudStep s h len check body = eventTrap s := by
  simp [carudStep, h0, h1]
theorem carudStep_nop (h0 : carudActs s = true) (h1 : eventDue s = false) (h2 : isNopGuard h = true) :
    carudStep s h len check body = passOver s 1 := by simp [carudStep, h0, h1, h2]
theorem carudStep_false (h0 : carudActs s = true) (h1 : eventDue s = false) (h2 : isNopGuard h = false) (h3 : guardOk s h = false) :
    carudStep s h len check body = passOver s len := by simp [carudStep, h0, h1, h2, h3]
theorem carudStep_illegal {t : Trap} (h0 : carudActs s = true) (h1 : eventDue s = false) (h2 : isNopGuard h = false)
    (h3 : guardOk s h = true) : carudStep s h len (some t) body = faultTake s t := by simp [carudStep, h0, h1, h2, h3]
theorem carudStep_fault {t : Trap} (h0 : carudActs s = true) (h1 : eventDue s = false) (h2 : isNopGuard h = false)
    (h3 : guardOk s h = true) : carudStep s h len none (.error t) = faultTake s t := by simp [carudStep, h0, h1, h2, h3]
theorem carudStep_done {d : Done} (h0 : carudActs s = true) (h1 : eventDue s = false) (h2 : isNopGuard h = false)
    (h3 : guardOk s h = true) : carudStep s h len none (.ok d) = complete s (cycles s.cpu.wrote len d) len d := by
  simp [carudStep, h0, h1, h2, h3]
end

/-- A trap entry with room on the return stack. -/
theorem trapTake_room (s : State) (v detail : Nat) (adr : Option W32) (ret : W16) (h : s.cpu.rswrap = true ∨ s.cpu.rs.length < 17) :
    trapTake s v detail adr ret = corePass { s with cpu := { s.cpu with
      rs := pushEntry s.cpu (frameWord s.cpu ret), tcause := BitVec.ofNat 8 (v + 16 * detail), tadr := adr.getD s.cpu.tadr
      ie := false, lpdepth := 0, pc := w16 (4 * v), lastv := BitVec.ofNat 4 v, fresh := true, gather := none
      oldCode := [], wrote := [] } } 4 := by
  unfold trapTake
  rcases h with h | h
  · simp [h]
  · simp [Nat.not_le.mpr h]
theorem trapTake_full (s : State) (v detail : Nat) (adr : Option W32) (ret : W16) (h : s.cpu.rswrap = false) (h1 : 17 ≤ s.cpu.rs.length) :
    trapTake s v detail adr ret = doubleFault s v := by simp [trapTake, h, h1]

end Sys2Proof.Machine
end

