-- ==== Sys2Proof/WellFormed.lean ====
section
/-! DEFINITION. Which commands are well formed: their lists have the lengths the spec gives, and their numbers lie where something of
that number exists. -/
namespace Sys2Proof

/-- R103, R78: the charges of at most 128 RX columns, and at most 63 slots. -/
def GroupInput.wf (q : GroupInput) : Bool :=
  decide (q.coup.length ≤ 128) && q.coup.all (fun l => decide (l.length ≤ 63))
  && q.extra.all (fun l => decide (l.length ≤ 128)) && decide (q.early ≤ 1000) && q.unit.all (fun u => decide (0 < u))

/-- R78: a slot of a code group, and an RX column. -/
def PathError.wf (e : PathError) : Bool := decide (e.slot ≤ 63) && decide (e.col < 128)

/-- R287, R308: LEN gives the length of the payload, at most 252, unless the line showed a violation. -/
def RxParcel.wf (x : RxParcel) : Bool := x.viol || (x.p.payload.length == x.p.len.toNat && decide (x.p.len.toNat ≤ 252))

/-- R206, R377: the scrubber reads words that exist. -/
def ScrubTarget.wf : ScrubTarget → Bool
  | .mem a =>
    a.toNat % 4 == 0 && (decide (a.toNat < 0x40000) || (decide (0x100000 ≤ a.toNat) && decide (a.toNat < 0x120000))
      || (decide (0x200000 ≤ a.toNat) && decide (a.toNat < 0x300000)))
  | .zone _ => true

/-- A well-formed command. -/
def Instr.wf : Instr → Bool
  | .powerOnReset => true
  | .resetNAssert _ => true
  | .resetEnd _ _ => true
  | .clocksLocked _ => true
  | .clocksTimeout => true
  | .loadComplete => true
  | .bootGo _ => true
  | .microLock _ => true
  | .vhvLoss => true
  | .vhvRestore => true
  | .vfldLoss => true
  | .vfldRestore => true
  | .hostSupplyLoss => true
  | .hostSupplyRestore => true
  | .refclkLoss => true
  | .refclkRestore => true
  | .modeRequest _ => true
  | .watchEntry => true
  | .holdoverEnd => true
  | .coreResumed => true
  | .senseResumed => true
  | .perfRequest _ => true
  | .perfChangeDone => true
  | .wakePin _ => true
  | .linkActivityWake _ _ => true
  | .beat _ => true
  | .beatEdge interval => decide (0 < interval)
  | .beatLost => true
  | .fenceIssue _ => true
  | .fenceApply => true
  | .passStart _ _ => true
  | .groupStart _ g _ q => decide (g < 18) && q.wf
  | .quietHoldEnd => true
  | .noisyCompletion => true
  | .deadlineReached => true
  | .groupDecode _ g errs _ => decide (g < 18) && errs.all PathError.wf
  | .selfStepDone _ _ => true
  | .listenEnd _ samples => decide (samples.length ≤ 4) && samples.all (fun l => decide (l.length ≤ 3200))
  | .synEdge _ before after => before != after
  | .synTimeout _ => true
  | .frequencyHop _ => true
  | .shdOverload _ => true
  | .shdFence _ => true
  | .clampEvent _ _ => true
  | .calDue => true
  | .calibrationRequest _ => true
  | .calStep m0 m1 sat => m0.length == 8 && m1.length == 8 && sat.length == 8
  | .calForce => true
  | .trimApply => true
  | .ampFence _ => true
  | .elchkDue => true
  | .elchkStep caps coups => caps.length == 32 && coups.length == 32
  | .elecFence _ => true
  | .elchklate => true
  | .pipelineRow _ t _ => decide (t < 126)
  | .passDone _ => true
  | .keySelect _ grp => decide (grp < 256)
  | .baselineValid _ => true
  | .retrackEnd _ => true
  | .negReseat _ i => decide (i < 16128)
  | .blrelease _ => true
  | .pipeFence _ => true
  | .reseat _ => true
  | .retrack _ => true
  | .streamFrame _ => true
  | .gesture => true
  | .checkSlotDone samples => samples.length == 4 && samples.all (fun l => l.length == 8)
  | .comparatorCrossing _ _ => true
  | .urgentConversion _ _ => true
  | .seqEntryStart => true
  | .seqConversion _ _ => true
  | .auxResult _ => true
  | .auxChannelUnmeasurable _ => true
  | .excOverload _ => true
  | .excRefbad _ => true
  | .excThermalTrip _ => true
  | .excThermalRecover _ => true
  | .axcalZero _ => true
  | .axcalSpan _ => true
  | .axcalStart => true
  | .axcalDone _ => true
  | .auxdataRead _ => true
  | .zoneTrip _ => true
  | .zoneRelease _ => true
  | .zoneUnmeasTrip _ => true
  | .zoneBaselineValid _ => true
  | .zoneSourceTimeout _ => true
  | .zclr _ _ => true
  | .zoneBitmapWrite _ _ => true
  | .permitOn _ => true
  | .permitForce _ => true
  | .permitReadbackFault _ => true
  | .permitShort _ => true
  | .backfedRejudge _ => true
  | .permclr _ => true
  | .alertPeriodic => true
  | .remoteTimeout _ => true
  | .lampPeriodStart _ _ _ => true
  | .lampOffEdge _ _ _ => true
  | .lampEdgeDeferred _ _ => true
  | .lampDiagPulse _ _ => true
  | .lampThermalTrip _ => true
  | .mov _ _ _ => true
  | .lea _ _ _ => true
  | .gath _ _ _ _ => true
  | .add _ _ _ _ => true
  | .sub _ _ _ _ => true
  | .adds _ _ _ _ => true
  | .subs _ _ _ _ => true
  | .neg _ _ _ => true
  | .abs _ _ _ => true
  | .min _ _ _ _ => true
  | .max _ _ _ _ => true
  | .and _ _ _ _ => true
  | .or _ _ _ _ => true
  | .xor _ _ _ _ => true
  | .not _ _ _ => true
  | .shl _ _ _ _ => true
  | .shr _ _ _ _ => true
  | .ext _ _ _ => true
  | .cmp _ _ _ => true
  | .tst _ _ _ => true
  | .plog _ => true
  | .mul _ _ _ => true
  | .mac _ _ _ => true
  | .mqrd _ _ => true
  | .crcw _ _ => true
  | .parity _ _ _ => true
  | .brev _ _ _ => true
  | .resid _ _ _ => true
  | .br _ => true
  | .jmp _ _ => true
  | .call _ => true
  | .calli _ _ => true
  | .ret _ => true
  | .resume _ => true
  | .trap _ => true
  | .loop _ _ => true
  | .lbrk _ => true
  | .wait _ => true
  | .waitRelease => true
  | .nop _ => true
  | .userInstruction _ _ ops => decide (ops.length ≤ 3)
  | .eventTrap _ => true
  | .timerExpire => true
  | .timerWrite _ => true
  | .mqWrite _ _ => true
  | .rsbotRead => true
  | .rsbotWrite _ => true
  | .cycloRead => true
  | .carudHalt _ => true
  | .carudRun _ => true
  | .carudReset _ => true
  | .carudDoorbell _ => true
  | .scratchWrite _ => true
  | .beatloRead => true
  | .calcntloRead => true
  | .synperloRead _ => true
  | .counterClearingRead _ _ => true
  | .registerWrite _ _ _ => true
  | .windatRead => true
  | .windatWrite _ => true
  | .windowSelectWrite _ _ => true
  | .remoteFetch _ => true
  | .remotePush _ => true
  | .windowTimeout => true
  | .queueDataRead _ => true
  | .queueFlush _ _ => true
  | .queueFlushEffect _ => true
  | .queueFlushnow _ _ => true
  | .queuePacketWrite _ n => decide (0 < n)
  | .queueReset _ _ => true
  | .pastart _ => true
  | .padata _ => true
  | .rxrtailWrite _ => true
  | .logEntryRead _ => true
  | .reportRx _ x => x.wf
  | .bulkRx _ x => x.wf
  | .alertRx _ x => x.wf
  | .fenceRx _ x => x.wf
  | .fenceackRx _ x => x.wf
  | .beatRx _ x _ => x.wf
  | .grantRx _ x => x.wf
  | .endRx _ _ _ _ => true
  | .helloRx _ x => x.wf
  | .enumRx _ x => x.wf
  | .winreqRx _ x => x.wf
  | .winrspRx _ x => x.wf
  | .bootimgRx _ x => x.wf
  | .heartbeatRx _ x => x.wf
  | .takeoverRx _ x => x.wf
  | .grantSend _ => true
  | .downwardParcelSend _ => true
  | .windowLost _ => true
  | .collision _ => true
  | .downPortBeacon _ => true
  | .grantTimeout _ _ => true
  | .linkPortFence _ _ => true
  | .beatSideSwitch => true
  | .helloSend _ => true
  | .helloRetry => true
  | .enumComplete => true
  | .broadcastComplete => true
  | .takeover => true
  | .startupTakeover => true
  | .becomeStandby => true
  | .strapConflict => true
  | .unfenceTest _ => true
  | .unfenceCommand _ => true
  | .repairTestDone _ _ _ => true
  | .unfenceApply => true
  | .scrubAccess t _ => t.wf
  | .jtagBypass => true
  | .jtagIdcode => true
  | .jtagSamplePreload _ => true
  | .jtagExtest => true
  | .jtagExtestExit => true
  | .resetNRelease => true
  | .powerOnResetRelease => true
  | .permitReadbackChange _ _ => true
  | .permitSwitchCooled _ => true
  | .excRefbadClear _ => true
  | .dormantEntryFromHold => true

end Sys2Proof
end

