-- ==== Sys2Proof/Tests/Slice0.lean ====
section
/-! SUPPORT. Tests: an ill-formed command for each check, single steps against values worked out from the spec, and for every
statement with hypotheses a state and operands that meet them. -/
namespace Sys2Proof.Tests
section
set_option Elab.async false
open Sys2Proof Sys2Proof.Machine

/-! ### States -/

/-- A worker that scans: every supply up, boot complete. -/
def worker : State := {
  pwr := { boot := .run, sense := .run, core := .run, link := .run, refOk := true, vok := true, vhvOk := true, vfldOk := true }
  beat := { running := true }
  lnk := { addr := 5 }
  cpu := { st := .running } }
/-- Manager A that scans, as the ringmaster. -/
def manager : State := { worker with
  pwr := { worker.pwr with role := .managerA }
  lnk := { ring := true } }
/-- In boot state b. -/
def inBoot (b : Boot) (s : State) : State := { s with pwr := { s.pwr with boot := b } }
/-- In mode m, with change c in progress. -/
def inMode (m : Mode) (c : Change) (r : Mode) (s : State) : State := { s with pwr := { s.pwr with mode := m, change := c, reqMode := r } }
/-- With these register words staged and in force. -/
def words (l : List (Nat × W16)) (s : State) : State := { s with regs := { staged := l, force := l } }
/-- With these bytes in memory. -/
def bytes (l : List Host.Cell) (s : State) : State := { s with mem := { s.mem with bytes := l } }
/-- With this permit, zone, lamp, port, pass, amplifier in place 0. -/
def permit0 (p : Permit) (s : State) : State := { s with out := { s.out with permits := upd s.out.permits 0 (fun _ => p) } }
def zone0 (z : Zone) (s : State) : State := { s with zon := { s.zon with zones := upd s.zon.zones 0 (fun _ => z) } }
def lamp0 (l : Lamp) (s : State) : State := { s with out := { s.out with lamps := upd s.out.lamps 0 (fun _ => l) } }
def port0 (p : Port) (s : State) : State := { s with lnk := { s.lnk with ports := upd s.lnk.ports 0 (fun _ => p) } }
def pass0 (p : Pass) (s : State) : State := { s with car := { s.car with passes := upd s.car.passes 0 (fun _ => p) } }
def amp0 (a : Amp) (s : State) : State := { s with ana := { s.ana with amps := upd s.ana.amps 0 (fun _ => a) } }
/-- The next state of a command, or the state itself where there is none. -/
def after (c : Instr) (s : State) : State := match exec c s with
  | .next t => t
  | _ => s

/-! ### What meets the statements' hypotheses: boot, supplies, modes -/

theorem witness_StepRunsFrontCommand : State.reset.pending = [] := rfl

theorem witness_ResetsReturnEveryRegister : 1000 ≤ 1000 ∧ 99 < 100 ∧ (100 ≤ 100 ∧ 100 < 1000) ∧ (100 ≤ 999 ∧ 999 < 1000) := by decide

def clocks (r : Role) (src : BitVec 2) : State := { pwr := { boot := .clocks, role := r, bootSrc := src } }
theorem witness_StrapsAndClocksDecideTheBoot :
    (State.reset.pwr.boot = .reset ∧ State.reset.pwr.powered = true ∧ State.reset.pwr.rstLow = false)
    ∧ 200 ≤ 200 ∧ (400 ≤ 400 ∧ 400 ≤ 600) ∧ (400 ≤ 600 ∧ 600 ≤ 600) ∧ 800 ≤ 800 ∧ (200 < 201 ∧ 201 < 400) ∧ (200 < 399 ∧ 399 < 400)
    ∧ (600 < 601 ∧ 601 < 800) ∧ (600 < 799 ∧ 799 < 800)
    ∧ (∀ src : Fin 4, (clocks .none (BitVec.ofFin src)).pwr.boot = .clocks ∧ (clocks .none (BitVec.ofFin src)).pwr.refStop = false)
    ∧ (clocks .none 0).pwr.role = .none
    ∧ ((clocks .worker 2).pwr.role ≠ .none ∧ (clocks .worker 2).pwr.bootSrc = 2)
    ∧ ((clocks .managerB 0).pwr.role ≠ .none ∧ (clocks .managerB 0).pwr.bootSrc = 0 ∧ isManager (clocks .managerB 0) = true)
    ∧ ((clocks .worker 0).pwr.role = .worker ∧ (clocks .worker 0).pwr.bootSrc = 0)
    ∧ ((clocks .worker 1).pwr.role ≠ .none ∧ (clocks .worker 1).pwr.bootSrc = 1 ∧ (clocks .worker 1).stored = true)
    ∧ ((clocks .managerA 3).pwr.role ≠ .none ∧ (clocks .managerA 3).pwr.bootSrc = 3)
    ∧ (∀ c : Fin 3, fld (BitVec.ofNat 8 c) 0 2 = c ∧ (31 < 32 ∧ 31 < 33)) := by decide

/-- A worker that loads from flash; in its Granary an image of no sections, or none. -/
def loading (img : List Byte) (s : State) : State := wrBytes (inBoot .load { s with pwr := { s.pwr with bootSrc := 1 } }) granBase img
/-- An image of 64 bytes with one CODE section of four bytes, its CRCs worked out outside the model. -/
def image : List Byte :=
  [0x5E, 0x48, 0x0B, 0x01, 0, 0, 0, 0x40, 0, 0, 0, 0x01, 0, 0, 0, 0, 0, 0, 0, 0, 0, 0, 0, 0] ++ [0xA3, 0x49, 0xFB, 0x44, 0x49, 0xBC, 0x11, 0xE3]
  ++ [0x01, 0, 0, 0, 0, 0, 0, 0, 0, 0, 0, 0x30, 0, 0, 0, 0x04, 0xDE, 0xAD, 0xBE, 0xEF, 0, 0, 0, 0, 0, 0, 0, 0, 0, 0, 0, 0]
def mgr (s : State) : State := { s with pwr := { s.pwr with role := .managerA } }
def homeless (s : State) : State := { s with lnk := {} }
/-- The same image from the link, of which n bytes have come. -/
def linkLoading (n : Nat) : State :=
  let s := loading image worker
  { s with pwr := { s.pwr with bootSrc := 0 }, lnk := { s.lnk with imgGot := n } }
theorem witness_ImageCheckDecidesBoot :
    (let s := loading [] worker; s.pwr.boot = .load ∧ s.pwr.loaded = false ∧ s.pwr.bootSrc ≠ 0 ∧ imageFault s = some 0)
    ∧ (let s := loading image (mgr worker); s.pwr.boot = .load ∧ s.pwr.loaded = false ∧ imageFault s = none ∧ s.pwr.reload = false ∧ isManager s = true)
    ∧ (let s := loading image worker; s.pwr.boot = .load ∧ imageFault s = none ∧ s.pwr.reload = false ∧ isManager s = false ∧ s.lnk.addr ≠ 0)
    ∧ (let s := loading image (homeless worker); imageFault s = none ∧ s.pwr.reload = false ∧ isManager s = false ∧ s.lnk.addr = 0)
    ∧ (let s := linkLoading 64; s.pwr.bootSrc = 0 ∧ s.pwr.boot = .load ∧ s.pwr.loaded = false ∧ linkImageIn s = true ∧ imageFault s = none)
    ∧ linkImageIn (linkLoading 63) = false ∧ (after .refclkLoss (inBoot .load worker)).pwr.refStop = true ∧ (unpack (loading image worker)).cpu.fen = false := by
  decide +kernel

/-- A device in HOSTLOAD whose host load is complete (no code), or absent. -/
def hostload (good : Bool) (s : State) : State :=
  inBoot .hostload (if good then bytes [(0x11FFE0, 0x44), (0x11FFE1, 0x4C), (0x11FFE2, 0x48), (0x11FFE3, 0x5E)] s else s)
def locking (b : Bool) (s : State) : State := { s with pwr := { s.pwr with lock := s.pwr.lock || b } }
theorem witness_BootControlNeedsItsKey :
    hostAnswers (after .hostSupplyLoss worker) = false
    ∧ (let s := hostload true worker; hostAnswers s = true ∧ s.pwr.boot = .hostload ∧ bit (0xC301 : W16) 1 = false ∧ fld (0xC301 : W16) 8 8 = 0xC3)
    ∧ (hostAnswers worker = true ∧ inRun worker = true ∧ fld (0xC301 : W16) 8 8 = 0xC3 ∧ fld (0xC201 : W16) 8 8 ≠ 0xC3)
    ∧ (let s := inBoot .load worker; hostAnswers s = true ∧ inRun s = false ∧ s.pwr.boot ≠ .hostload)
    ∧ (fld (0xC303 : W16) 8 8 = 0xC3 ∧ bit (0xC303 : W16) 1 = true ∧ bit (0xC303 : W16) 0 = true)
    ∧ (let s := hostload false worker; hostAnswers s = true ∧ s.pwr.boot = .hostload ∧ s.pwr.loaded = false ∧ s.pwr.reload = false
        ∧ hostLoadFault (locking false (settle s)) = some 0)
    ∧ (let s := hostload true (mgr worker); hostLoadFault (locking false (settle s)) = none ∧ isManager s = true)
    ∧ (let s := hostload true worker; hostLoadFault (locking false (settle s)) = none ∧ isManager s = false ∧ s.lnk.addr ≠ 0)
    ∧ (let s := hostload true (homeless worker); hostLoadFault (locking false (settle s)) = none ∧ isManager s = false ∧ s.lnk.addr = 0) := by
  decide +kernel

theorem witness_SuppliesAndReferenceClock :
    (worker.pwr.vhvOk = true ∧ worker.pwr.powered = true ∧ worker.pwr.boot ≠ .reset ∧ worker.pwr.refStop = false)
    ∧ (let s := inBoot .reset worker; s.pwr.vhvOk = true ∧ s.pwr.boot = .reset)
    ∧ (let s := after .refclkLoss worker; s.pwr.refStop = true ∧ s.pwr.boot = .run ∧ s.pwr.mode = .scan)
    ∧ (let s := after .refclkLoss (inMode .hold .idle .hold worker); s.pwr.refStop = true ∧ s.pwr.boot = .run ∧ s.pwr.mode = .hold)
    ∧ worker.car.run = none ∧ scanEnded (after .refclkLoss worker) = false
    ∧ (let s := after .refclkLoss (inMode .scan (.entering .hold 1) .hold worker); s.pwr.refStop = true ∧ s.pwr.boot = .run ∧ s.pwr.mode = .scan ∧ scanEnded s = true) := by
  decide +kernel

/-- A host write that wakes waits for the end of the entry. -/
def asked (s : State) : State := { s with pwr := { s.pwr with wakeHeld := some (1, .scan) } }
theorem witness_ModeRequestBeginsTheChange :
    (hostAnswers worker = true ∧ inRun worker = true ∧ worker.pwr.mode = .scan ∧ worker.pwr.change = .idle)
    ∧ (fld (0xA401 : W16) 8 8 ≠ 0xA5 ∧ fld (0xA501 : W16) 8 8 = 0xA5 ∧ fld (0xA501 : W16) 0 2 = 1 ∧ 2 ≤ fld (0xA502 : W16) 0 2
        ∧ 2 ≤ fld (0xA503 : W16) 0 2 ∧ fld (0xA502 : W16) 8 8 = 0xA5 ∧ fld (0xA503 : W16) 8 8 = 0xA5 ∧ fld (0xA500 : W16) 8 8 = 0xA5
        ∧ fld (0xA500 : W16) 0 2 = 0)
    ∧ (∀ m : Fin 2, let m := if m = 0 then Mode.hold else .dormant
       let s := inMode m .idle m worker; hostAnswers s = true ∧ inRun s = true ∧ s.pwr.mode = m ∧ s.pwr.change = .idle)
    ∧ (let s := inMode .scan (.entering .hold 3) .hold worker; hostAnswers s = true ∧ inRun s = true ∧ s.pwr.change = .entering .hold 3
        ∧ s.pwr.wakeHeld = none)
    ∧ (let s := asked (inMode .scan (.entering .hold 3) .scan worker); s.pwr.change = .entering .hold 3 ∧ s.pwr.wakeHeld = some (1, .scan))
    ∧ (inMode .watch .idle .watch worker).pwr.mode = .watch := by
  decide +kernel

def coreKept (s : State) : State := { s with pwr := { s.pwr with core := .retention } }
def wakeWaits (s : State) : State := { s with pwr := { s.pwr with wakeHeld := some (2, .scan) } }
/-- A store of Carud's waits behind a PASTART that is held. -/
def holding (s : State) : State := { s with pa := { s.pa with ready := false, held := some 5, late := [(0x422806, 2, 0)] } }
theorem witness_ModeChangesComplete :
    (let s := holding (inMode .scan .toWatch .watch worker); atBoundary s = true ∧ s.pwr.refStop = false ∧ s.pwr.change = .toWatch
      ∧ isManager s = false ∧ coreRuns s = true ∧ s.pa.held ≠ none)
    ∧ (let s := inMode .scan .toWatch .watch worker; atBoundary s = true ∧ s.pa.held = none ∧ s.pa.late = [])
    ∧ (after .refclkLoss worker).pwr.refStop = true ∧ worker.pwr.core ≠ .off
    ∧ (let s := { inMode .scan (.entering .hold 0) .hold worker with pwr := { (inMode .scan (.entering .hold 0) .hold worker).pwr with core := .off } }
       s.pwr.refStop = false ∧ s.pwr.core = .off)
    ∧ (let s := inMode .scan .toWatch .watch worker; s.pwr.change = .toWatch ∧ s.pwr.reqMode = .watch ∧ s.pwr.wakeHeld = none ∧ s.pwr.core = .run)
    ∧ (let s := inMode .scan (.entering .hold 0) .hold worker; s.pwr.change = .entering .hold 0 ∧ s.pwr.reqMode = .hold ∧ s.pwr.wakeHeld = none)
    ∧ (let s := wakeWaits (inMode .scan (.entering .hold 0) .hold worker); s.pwr.change = .entering .hold 0 ∧ s.pwr.reqMode = .hold
        ∧ s.pwr.wakeHeld = some (2, .scan) ∧ bit (2 : BitVec 5) 0 = false)
    ∧ (let s := inMode .scan (.entering .dormant 0) .dormant worker; s.pwr.change = .entering .dormant 0 ∧ s.pwr.reqMode = .dormant)
    ∧ (let s := inMode .hold .holdToDormant .dormant worker; s.pwr.change = .holdToDormant ∧ s.pwr.reqMode = .dormant ∧ s.pwr.wakeHeld = none)
    ∧ (let s := coreKept (inMode .watch .watchToScan .scan worker); s.pwr.change = .watchToScan ∧ s.pwr.core = .retention
        ∧ s.pwr.refStop = false ∧ fld s.mem.lost 16 4 = 0 ∧ fld s.mem.lost 20 2 = 0)
    ∧ (∀ m : Fin 2, let m := if m = 0 then Mode.scan else .watch; let s := inMode .hold (.resuming m) m worker; s.pwr.change = .resuming m
        ∧ s.pwr.mode = .hold ∧ s.pwr.reqMode = m ∧ s.pwr.wakeHeld = none ∧ s.pwr.refStop = false ∧ s.mem.lost = 0) := by
  decide +kernel

theorem witness_PerformanceLevelChanges :
    (hostAnswers worker = true ∧ inRun worker = true ∧ coreRuns worker = true ∧ worker.pwr.perfBusy = false
      ∧ fld (3 : W16) 0 2 = 3 ∧ (2 : BitVec 2) ≠ worker.pwr.perfNow ∧ fld (0 : W16) 0 2 = worker.pwr.perfNow.toNat)
    ∧ coreRuns (coreKept worker) = false
    ∧ (let s := after (.perfRequest 3) worker; s.pwr.perfReq = 3 ∧ s.pwr.perfBusy = true ∧ coreRuns s = true ∧ perfLevel s = s.pwr.perfTgt)
    ∧ (let s := { worker with pwr := { worker.pwr with perfBusy := true, perfTgt := 2, perfReq := 1 } }
       s.pwr.perfBusy = true ∧ coreRuns s = true ∧ perfLevel s ≠ s.pwr.perfTgt) := by
  decide +kernel

theorem witness_WakesAreRecorded :
    (∀ m : Fin 3, let s := words [(0x1603, 1)] (inMode (if m = 0 then .hold else if m = 1 then .watch else .scan) .idle .scan worker)
      s.pwr.powered = true ∧ inRun s = true ∧ rbit (reg s) 0x1603 0 = true ∧ s.pwr.change = .idle)
    ∧ (let s := words [(0x1500, 0x0041)] (inMode .hold .idle .hold worker)
       s.pwr.powered = true ∧ inRun s = true ∧ s.pwr.mode = .hold ∧ s.pwr.change = .idle ∧ isUplink s 0 = true ∧ portEnabled s 0 = true
       ∧ rbit (reg s) 0x1500 6 = true)
    ∧ (let s := words [(0x1603, 1)] (inMode .hold (.resuming .scan) .scan worker)
       s.pwr.powered = true ∧ inRun s = true ∧ rbit (reg s) 0x1603 0 = true ∧ s.pwr.mode = .hold ∧ s.pwr.change = .resuming .scan)
    ∧ (let s := words [(0x1603, 1)] (inBoot .clocks (inMode .dormant (.resuming .scan) .scan { worker with pwr := { worker.pwr with fromDormant := true } }))
       s.pwr.powered = true ∧ s.pwr.boot = .clocks ∧ s.pwr.fromDormant = true ∧ rbit (reg s) 0x1603 0 = true ∧ s.pwr.mode = .dormant
        ∧ s.pwr.change = .resuming .scan)
    ∧ worker.pwr.mode = .scan := by
  decide +kernel

/-! ### The beat, fences, the carousel -/

/-- Manager A whose BEAT ball is enabled. -/
def balled (run per : Nat) (foll : Bool) : State :=
  words [(0x1604, 1)] { manager with beat := { manager.beat with ballRun := run, ballPer := per, following := foll } }
theorem witness_EveryBeatCountsAndBeginsAFrame :
    (beatsOccur worker = true ∧ worker.jtag.ir ≠ .extest ∧ ballFollowed worker = false ∧ inRun worker = true ∧ worker.pwr.mode = .scan
      ∧ worker.pwr.change = .idle ∧ worker.ana.startCal = 0 ∧ worker.beat.running = true ∧ worker.lnk.strapDue = false ∧ isManager worker = false
      ∧ coreRuns worker = true ∧ stillLost worker = false)
    ∧ (beatsOccur manager = true ∧ ballFollowed manager = false ∧ stillLost manager = false ∧ manager.lnk.ring = true)
    ∧ (let s := { worker with lnk := { worker.lnk with beatSeen := 1 } }; beatsOccur s = true ∧ s.lnk.ring = false ∧ bit s.lnk.beatSeen (b2n s.lnk.beatB) = true
      ∧ stillLost s = false)
    ∧ (let s := after .beatLost (balled 8 100000 true); beatsOccur s = true ∧ ballFollowed s = false ∧ stillLost s = true)
    ∧ (let s := after .jtagExtest worker; s.jtag.ir = .extest ∧ beatsOccur s = true ∧ ballFollowed s = false ∧ inRun s = true ∧ s.pwr.mode = .scan
        ∧ s.pwr.change = .idle ∧ s.ana.startCal = 0 ∧ s.beat.running = true ∧ s.lnk.strapDue = false)
    ∧ (inRun manager = true ∧ manager.pwr.mode = .scan ∧ manager.pwr.change = .idle ∧ manager.ana.startCal = 0 ∧ manager.beat.running = true
        ∧ manager.lnk.strapDue = false ∧ manager.jtag.ir ≠ .extest)
    ∧ ballFollowed (balled 8 100000 true) = true := by decide +kernel

theorem witness_BeatSourcesAreFollowedAndLost :
    (let s := balled 0 0 false; beatsOccur s = true ∧ s.lnk.ring = true ∧ rbit (reg s) 0x1604 0 = true ∧ s.jtag.ir ≠ .extest
      ∧ s.beat.following = false ∧ s.beat.ballRun = 0)
    ∧ (79999 < 80000 ∧ 4000000 < 4000001 ∧ 80000 ≤ 4000000)
    ∧ (balled 3 100000 false).beat.ballPer < 1000 * (((balled 3 100000 false).beat.ballPer : Int) - (100101 : Nat)).natAbs
    ∧ (∀ n : Fin 2, let s := balled (if n = 0 then 1 else 6) 100000 false
        0 < s.beat.ballRun ∧ s.beat.ballRun < 7 ∧ 1000 * ((s.beat.ballPer : Int) - (100100 : Nat)).natAbs ≤ s.beat.ballPer)
    ∧ (let s := balled 7 80000 false; 7 ≤ s.beat.ballRun ∧ 1000 * ((s.beat.ballPer : Int) - (80000 : Nat)).natAbs ≤ s.beat.ballPer)
    ∧ (balled 8 100000 true).beat.following = true
    ∧ (worker.lnk.ring = false ∧ rbit (reg manager) 0x1604 0 = false)
    ∧ (let s := balled 8 100000 true; beatsOccur s = true ∧ beatSourced s = true ∧ s.beat.lost = false ∧ s.flt.log.length = 64)
    ∧ (let s := after .beatLost (balled 8 100000 true); beatsOccur s = true ∧ beatSourced s = true ∧ s.beat.lost = true)
    ∧ (beatsOccur manager = true ∧ beatSourced manager = false) := by decide +kernel

/-- A program A of one MUTUAL pass with one TX and one RX pin: staged and in force, or staged only. -/
def mutualWords : List (Nat × W16) := [(0x600, 0x0E41), (0x800, 0x0021)]
def mutuals : State := words mutualWords worker
theorem witness_FencesApplyStagedConfigurationWhole :
    (hostAnswers manager = true ∧ inRun manager = true ∧ bit (1 : W16) 0 = true ∧ manager.lnk.ring = true ∧ manager.pwr.mode = .scan)
    ∧ (hostAnswers worker = true ∧ inRun worker = true ∧ worker.lnk.ring = false)
    ∧ (let s := { worker with beat := { worker.beat with fenceWait := some 1 }, regs := { worker.regs with staged := mutualWords } }
       s.beat.fenceWait = some 1 ∧ s.pwr.mode = .scan ∧ inRun s = true ∧ atBoundary s = true ∧ stagedFaults s = [] ∧ swf regReset s.regs.staged = true
       ∧ swf regReset s.regs.force = true ∧ s.regs.auxWait = [] ∧ takesForce 0x600 = .fence)
    ∧ (let s := { worker with beat := { worker.beat with fenceWait := some 1 }, regs := { worker.regs with staged := [(0x600, 0x0E41), (0x800, 0x0001)] } }
       s.beat.fenceWait = some 1 ∧ s.pwr.mode = .scan ∧ inRun s = true ∧ atBoundary s = true ∧ stagedFaults s ≠ [])
    ∧ (let s := { worker with beat := { worker.beat with fenceWait := some 1, clk := 1 } }
       s.beat.fenceWait = some 1 ∧ s.pwr.mode = .scan ∧ inRun s = true ∧ atBoundary s = false) := by decide +kernel

theorem witness_PassStartsInItsSlot :
    (mutuals.jtag.ir ≠ .extest ∧ mutuals.car.passes.length = 16 ∧ passRuns mutuals 0 = true ∧ (getPass mutuals 0).started = false
      ∧ passEnded mutuals 0 = false ∧ earlierEnded mutuals 0 = true ∧ mutuals.car.run = none ∧ (getPass mutuals 0).seen = false)
    ∧ (let s := words [(0x600, 0x0E41), (0x603, 1), (0x800, 0x0021)] worker
       passRuns s 0 = true ∧ passEnded s 0 = false ∧ earlierEnded s 0 = true ∧ 0 < slotClocks (reg s) (actProg s) 0)
    ∧ (let s := pass0 { seen := true } mutuals; (getPass s 0).seen = true ∧ passRuns s 0 = true ∧ passEnded s 0 = false ∧ candidates s 0 = none)
    ∧ (let s := pass0 { pipe := some { beat := 0, seq := 0 } } mutuals; passRuns s 0 = true ∧ (getPass s 0).started = false ∧ passEnded s 0 = false
        ∧ earlierEnded s 0 = true ∧ s.car.run = none ∧ (getPass s 0).seen = false ∧ (getPass s 0).pipe.isSome = true)
    ∧ (getPass (after (.passStart 0 0) mutuals) 0).started = true := by
  decide +kernel

/-- VHV of 30 V, one coupling of 1 fF, nothing else, no recycling charge, nominal bushels. -/
def charge : GroupInput := ⟨30000, [[1000]], [], 0, []⟩
def started : State := after (.passStart 0 0) mutuals
/-- The same with a self pass (AXIS), and with a LISTEN pass. -/
def selfStarted : State := after (.passStart 0 0) (words [(0x600, 0x0E43), (0x800, 0x0020)] worker)
def listenStarted : State := after (.passStart 0 0) (words [(0x600, 0x0E48), (0x800, 0x0020)] worker)
/-- With REFCLK a stretch of time after the beat, and the carousel's time with it. -/
def lateBy (n : Nat) (s : State) : State := { s with beat := { s.beat with clk := n }, car := { s.car with time := n } }
theorem witness_StepsOfAGroupFollowOneAnother :
    ∀ i : Fin 2, let s := if i = 0 then started else selfStarted
      s.jtag.ir ≠ .extest ∧ passRuns s 0 = true ∧ (getPass s 0).started = true ∧ s.car.run = none ∧ isNext s 0 0 = true
      ∧ isListen (reg s) (actProg s) 0 = false ∧ s.pwr.vhvOk = true
      ∧ s.car.time + groupClocks (reg s) (actProg s) 0 (runFq s 0) ≤ deadlineAt s ∧ activeSyns s 0 = [] := by decide +kernel

theorem witness_GroupsPastTheDeadlineAreStale :
    (let s := lateBy 99000 started
     s.jtag.ir ≠ .extest ∧ passRuns s 0 = true ∧ (getPass s 0).started = true ∧ s.car.run = none
      ∧ isNext s 0 0 = true ∧ s.car.passes.length = 16 ∧ isListen (reg s) (actProg s) 0 = false
      ∧ deadlineAt s < s.car.time + groupClocks (reg s) (actProg s) 0 (runFq s 0))
    ∧ (let s := after .vhvLoss started; isMutual (reg s) (actProg s) 0 = true ∧ s.pwr.vhvOk = false ∧ isNext s 0 0 = true)
    ∧ (∀ i : Fin 2, let s := lateBy (if i = 0 then 0 else 1) listenStarted
        passRuns s 0 = true ∧ (getPass s 0).started = true ∧ s.car.run = none ∧ isNext s 0 0 = true
        ∧ isListen (reg s) (actProg s) 0 = true ∧ listenBlocked s 0 = false
        ∧ s.car.time + groupClocks (reg s) (actProg s) 0 (runFq s 0) ≤ deadlineAt s)
    ∧ (let s := { listenStarted with aux := { listenStarted.aux with adcFen := 4 } }
       isNext s 0 0 = true ∧ isListen (reg s) (actProg s) 0 = true ∧ listenBlocked s 0 = true) := by decide +kernel

/-- A step that holds: SYN source 0 allows edges only in the window w of its period of 2,000 clocks. -/
def held (w : W16) : State :=
  let s := words [(0x510, 1), (0x514, w), (0x600, 0x0E41), (0x605, 1), (0x800, 0x0021)] worker
  { s with car := { s.car with
      syn := upd s.car.syn 0 (fun _ => { period := 2000, valid := true, count := 3 })
      run := some (newRun s 0 0 0 charge) } }
/-- What the run in progress has come to. -/
def running (s : State) : Run := (runForward s).getD (newRun s 0 0 0 charge)
def heldNow (w : W16) : State := { held w with car := { (held w).car with run := some (running (held w)) } }
theorem witness_HeldStepsAndTheDeadline :
    (∃ run, (heldNow 0x0C00).car.run = some run ∧ run.now.hold = true ∧ runDone run = false
      ∧ needsNoisy (heldNow 0x0C00) (burstOf (heldNow 0x0C00) run.pass) run.now = false ∧ (heldNow 0x0C00).jtag.ir ≠ .extest)
    ∧ (∃ run, (heldNow 0x8180).car.run = some run ∧ run.now.hold = true ∧ runDone run = false
      ∧ needsNoisy (heldNow 0x8180) (burstOf (heldNow 0x8180) run.pass) run.now = true)
    ∧ (let s := heldNow 0x8180
       s.beat.running = true ∧ s.car.passes.length = 16 ∧ framePasses s = [0] ∧ groupsOf s 0 ≤ 18
       ∧ runInTime s (runOn s (running s)) = false)
    ∧ (let s := after (.groupStart 0 0 0 charge) started
       s.jtag.ir ≠ .extest ∧ s.car.run.isSome = true ∧ s.beat.running = true ∧ runInTime s (running s) = true) := by
  refine ⟨⟨running (heldNow 0x0C00), ?_⟩, ⟨running (heldNow 0x8180), ?_⟩, ?_⟩ <;> decide +kernel

/-- In sub-step k of the integrity test of block 0. -/
def integrity (k : Nat) : State := { worker with ana := { worker.ana with subs := [{ burst := 0, upTo := 100, el := some (0, k) }] } }
theorem witness_ChargeIsConservedAndPinsAreDriven :
    (1 ≤ 1 ∧ (if true then 3 else 0) + 1 ≤ 4 ∧ (-2048 : Int) ≤ -2048 ∧ (2047 : Int) ≤ 2047)
    ∧ ((0 : Int) < 1 ∧ (0 : Int) ≤ 0 ∧ (({ out := 0 } : Integ)).full = false ∧ (({ out := 0 } : Integ)).stop = false)
    ∧ pinFenced { worker with ana := { worker.ana with elFen := 1 } } 0 = true
    ∧ (∀ i : Fin 3, pinFenced worker 0 = false ∧ stepShown worker = none ∧ rf (reg (words [(0x200, 0x10 * BitVec.ofNat 16 i)] worker)) 0x200 4 2 = i)
    ∧ bit { worker with ana := { worker.ana with shdFen := 1 } }.ana.shdFen 0 = true
    ∧ (worker.pwr.powered = true ∧ subNow worker = none ∧ shdTested worker 0 = false
        ∧ ({ worker with pwr := { worker.pwr with powered := false } } : State).pwr.powered = false)
    ∧ (let s := integrity 2; ∃ x, subNow s = some x ∧ x.el = some (0, 2) ∧ s.pwr.powered = true ∧ pinFenced s 3 = false ∧ 3 / 32 = 0 ∧ 40 / 32 ≠ 0
        ∧ 3 % 2 ≠ 2 % 2 ∧ 4 % 2 = 2 % 2)
    ∧ (let s := words [(0x100, 0x0010), (0x600, 0x0E43), (0x800, 0x0020)]
         { worker with car := { worker.car with shown := some { pass := 0, group := 0, step := 1, ended := true, rest := some 20 } } }
       ∃ x, stepShown s = some x ∧ x.ended = true ∧ isSelf (reg s) (actProg s) x.pass = true ∧ rbit (reg s) 0x100 4 = true) := by
  refine ⟨by decide +kernel, by decide +kernel, by decide +kernel, by decide +kernel, by decide +kernel, by decide +kernel, ⟨_, rfl, ?_⟩,
    ⟨_, rfl, ?_⟩⟩ <;> decide +kernel

theorem witness_CodedDriveRecoversEveryCoupling : (3 ≤ 3 ∧ 3 ≤ 6 ∧ 1 ≤ 1 ∧ 1 < 2 ^ 3) ∧ (6 ≤ 6 ∧ 1 ≤ 63 ∧ 63 < 2 ^ 6) := by decide

def grouped : State := after (.groupStart 0 0 0 charge) started
/-- With zone 0 on node 0 of pass 0. -/
def zoneOn0 (s : State) : State :=
  let l := (0x4800, 1) :: mutualWords
  { s with regs := { staged := l.reverse, force := l.reverse }, zon := { s.zon with sram := [(0, 1)] } }
theorem witness_GroupDecodeChecksEveryRow :
    ∃ run, grouped.jtag.ir ≠ .extest ∧ isMutual (reg grouped) (actProg grouped) 0 = true ∧ completeRun grouped 0 0 = some run
      ∧ grouped.car.passes.length = 16
      ∧ (rowsOfGroup (reg grouped) (actProg grouped) 0 0).all
          (fun t => slotGood run (codeSize (reg grouped) (actProg grouped) 0) (codeLog (reg grouped) (actProg grouped) 0 - 1)
            (colCount (reg grouped) (actProg grouped) 0) (slotOfRow (reg grouped) (actProg grouped) 0 t) []) = true
      ∧ (rowsOfGroup (reg grouped) (actProg grouped) 0 0).all
          (fun t => slotGood run (codeSize (reg grouped) (actProg grouped) 0) (codeLog (reg grouped) (actProg grouped) 0 - 1)
            (colCount (reg grouped) (actProg grouped) 0) (slotOfRow (reg grouped) (actProg grouped) 0 t) [⟨1, 0, 1⟩]) = false := by
  refine ⟨running grouped, ?_⟩
  decide +kernel
theorem witness_GroupDecodeChecksEveryRow_zone :
    let s := zoneOn0 (after (.groupDecode 0 0 [] [1]) (zoneOn0 grouped))
    0 < zoneErrors [1] ∧ zonePass (reg s) 0 = 0 ∧ zoneKind (reg s) 0 ≠ 2 ∧ 0 ∈ zoneNodes s 0
    ∧ groupOfRow (reg s) (actProg s) 0 (0 / max (colCount (reg s) (actProg s) 0) 1) = 0 := by
  decide +kernel

theorem ratio_below (n : Nat) (h : 40 ≤ n) : 2 ^ 40 < 10 ^ n * 1 ^ 40 :=
  Nat.lt_of_lt_of_le (by decide : 2 ^ 40 < 10 ^ 40) (Nat.le_trans (Nat.pow_le_pow_right (by decide) h) (Nat.le_of_eq (Nat.mul_one _).symm))
theorem witness_SelfStepsAndListeningComplete :
    (let s := after (.groupStart 0 0 0 charge) selfStarted; s.jtag.ir ≠ .extest ∧ isSelf (reg s) (actProg s) 0 = true
      ∧ (completeRun s 0 0).isSome = true ∧ s.car.passes.length = 16)
    ∧ (let s := after (.groupStart 0 0 0 charge) listenStarted; s.jtag.ir ≠ .extest ∧ isListen (reg s) (actProg s) 0 = true
      ∧ (completeRun s 0 0).isSome = true ∧ s.car.passes.length = 16 ∧ listenBlocked s 0 = false)
    ∧ listenBlocked { after (.groupStart 0 0 0 charge) listenStarted with aux := { worker.aux with adcFen := 4 } } 0 = true
    ∧ (0 < 1 ∧ 1 ≤ 2 ∧ 2 ^ 40 < 10 ^ 16384 * 1 ^ 40) := by
  refine ⟨?_, ?_, ?_, by decide, by decide, ratio_below 16384 (by omega)⟩ <;> decide +kernel

/-- SYN source 0 enabled; its last edge was n clocks before the beat. -/
def synOn (valid : Bool) (n : Int) : State :=
  let s := words [(0x510, 1)] worker
  { s with car := { s.car with syn := upd s.car.syn 0 (fun _ => { valid := valid, count := 2, seen := true, last := -n, period := 2000 }) } }
/-- A group in progress while SYN source 0 is enabled and has seen no edge. -/
def synUnseen : State :=
  let s := words [(0x510, 1), (0x600, 0x0E41), (0x605, 1), (0x800, 0x0021)] worker
  { s with car := { s.car with run := some (newRun s 0 0 0 charge) } }
theorem witness_SynSourcesAndFrequencyHops :
    (synUnseen.car.run.isSome = true ∧ (getSyn synUnseen 0).seen = false ∧ senseRuns synUnseen = true ∧ scanEnded synUnseen = false
      ∧ synUnseen.jtag.ir ≠ .extest ∧ rbit (reg synUnseen) (0x510 + 0) 0 = true ∧ synUnseen.car.syn.length = 4)
    ∧ (scanEnded (inMode .scan (.entering .hold 1) .hold worker) = true ∧ (after .jtagExtest worker).jtag.ir = .extest
      ∧ rbit (reg worker) 0x510 0 = false ∧ senseRuns (after .refclkLoss worker) = false)
    ∧ (∀ v : Bool, senseRuns (synOn v 200) = true ∧ scanEnded (synOn v 200) = false ∧ (synOn v 200).jtag.ir ≠ .extest ∧ rbit (reg (synOn v 200)) (0x510 + 0) 0 = true ∧ (synOn v 200).car.syn.length = 4
      ∧ rbit (reg (synOn v 200)) (0x510 + 0) 1 = false ∧ (getSyn (synOn v 200) 0).seen = true)
    ∧ (getSyn (words [(0x510, 1)] worker) 0).seen = false
    ∧ (synSince (synOn true 200) 0 = 200 ∧ synSince (synOn false 16777215) 0 = 16777215 ∧ synSince (synOn true 199) 0 < 200
        ∧ 16777215 < synSince (synOn true 16777216) 0)
    ∧ (decide (2 * (getSyn (synOn true 4001) 0).period < synSince (synOn true 4001) 0) = true
        ∧ synSince (synOn true 4000) 0 ≤ 2 * (getSyn (synOn true 4000) 0).period)
    ∧ (let s := pass0 { hopCand := some 2, hopCount := 4 } (words [(0x600, 0x0E41), (0x602, 0x0003)] { worker with car := { worker.car with heard := true } })
       s.jtag.ir ≠ .extest ∧ atBoundary s = true ∧ s.car.heard = true ∧ 2 ≤ (fqSet s 0).length ∧ (getPass s 0).hopCand = some 2
        ∧ s.car.passes.length = 16 ∧ rf (reg s) 0x502 6 4 + 1 ≤ (getPass s 0).hopCount ∧ (getPass s 0).sinceHop = none)
    ∧ (let s := pass0 { hopCand := some 2, hopCount := 4, sinceHop := some 16 } worker; 4 * rf (reg s) 0x502 10 6 ≤ 16)
    ∧ (let s := pass0 { hopCand := some 2, hopCount := 3 } worker; (getPass s 0).hopCount < rf (reg s) 0x502 6 4 + 1)
    ∧ atBoundary (lateBy 1 worker) = false ∧ worker.car.heard = false := by decide +kernel

/-! ### Clamps, calibration, integrity, the pipeline -/

/-- With shield driver 0 on. -/
def shielded (s : State) : State :=
  let l := (0x100, 0x0010) :: s.regs.force
  { s with regs := { staged := l, force := l } }
/-- n clocks into the frame. -/
def clk (n : Nat) (s : State) : State := { s with beat := { s.beat with clk := n } }
theorem witness_OverloadsAndClampsMarkResults :
    (worker.car.run = none ∧ shdTested worker 0 = false ∧ rbit (reg worker) 0x100 4 = false)
    ∧ (∀ i : Fin 2, let s := clk (if i = 0 then 50 else 9000) (shielded (after (.groupStart 0 0 0 charge) selfStarted))
        isSelf (reg s) (actProg s) 0 = true ∧ s.car.run.isSome = true ∧ rbit (reg s) 0x100 4 = true ∧ bit s.ana.shdFen 0 = false
        ∧ carClk s = s.beat.clk ∧ runDone (runAt s (carClk s) (newRun s 0 0 0 charge)) = decide (i = 1))
    ∧ shdTested { worker with flt := { worker.flt with busy := true, tested := some ⟨4, 0⟩ } } 0 = true
    ∧ (let s := clk 50 grouped; (runAt s (carClk s) (newRun s 0 0 0 charge)).now.start + 4 ≤ carClk s)
    ∧ (let s := clk 9000 (after .jtagExtest (clk 50 grouped)); s.car.run.isSome = true ∧ carClk s = 50)
    ∧ (let s := clk 50 grouped; s.car.run.isSome = true ∧ isSelf (reg s) (actProg s) 0 = false
        ∧ satPhase s (runAt s s.beat.clk (newRun s 0 0 0 charge)) = true)
    ∧ (let s := clk 1 grouped; satPhase s (runAt s s.beat.clk (newRun s 0 0 0 charge)) = false)
    ∧ (senseRuns worker = true ∧ 1000 ≤ 1000 ∧ 999 < 1000) := by decide +kernel

def calSteps (n : Nat) : State := { worker with ana := { worker.ana with startCal := n, calDue := true } }
def goodReading : CalReading := ⟨0, 204800, false, false⟩
def badReading : CalReading := ⟨0, 204800, true, false⟩
/-- Every pass of the frame has ended, n clocks after the beat. -/
def gapAt (n : Nat) (s : State) : State := { s with car := { s.car with lastEnd := n, time := n } }
theorem witness_CalibrationBecomesDueAndMovesTrims :
    (let s := { worker with ana := { worker.ana with calFrames := 1024, chkFrames := 64 } }; rbit (reg s) 0x102 0 = true ∧ 2 ^ (min (rf (reg s) 0x102 2 4) 8 + 8) ≤ s.ana.calFrames
      ∧ rbit (reg s) 0x104 0 = true ∧ 2 ^ (rf (reg s) 0x104 1 3 + 4) ≤ s.ana.chkFrames)
    ∧ (let s := { worker with ana := { worker.ana with calFrames := 1023, chkFrames := 63 } }; s.ana.calFrames < 2 ^ (min (rf (reg s) 0x102 2 4) 8 + 8) ∧ s.ana.chkFrames < 2 ^ (rf (reg s) 0x104 1 3 + 4))
    ∧ (spaceOpen worker = true ∧ bit (0x0100 : W16) 8 = true ∧ bit (0x00FF : W16) 8 = false)
    ∧ (let s := { worker with ana := { worker.ana with calDue := true, chkDue := true } }; s.ana.calDue = true ∧ gapWork s = true ∧ s.ana.chkDue = true ∧ s.ana.chkLate = false)
    ∧ (after .elchklate { worker with ana := { worker.ana with chkDue := true } }).ana.chkLate = true
    ∧ ((calSteps 1).jtag.ir ≠ .extest ∧ gapWork (calSteps 1) = true ∧ (calSteps 1).ana.amps.length = 128 ∧ 0 < (calSteps 1).ana.startCal)
    ∧ (let s := gapAt (deadlineAt worker - 3968) (calSteps 0); s.ana.startCal = 0 ∧ calGapFree s = true ∧ inForcedGap s = false
        ∧ calEndAt s s.car.lastEnd = deadlineAt s)
    ∧ (let s := gapAt (deadlineAt worker - 3967) (calSteps 0); calGapFree s = false ∧ inForcedGap s = false)
    ∧ (let s := { calSteps 0 with ana := { (calSteps 0).ana with calGap := true } }; s.ana.calDue = true ∧ inForcedGap s = true ∧ calEndAt s 0 = 3968)
    ∧ ((calAssess (getAmp (calSteps 1) 0).trim goodReading).isSome = true ∧ calAssess (getAmp (calSteps 1) 0).trim badReading = none)
    ∧ 6 ≤ ((List.range 8).filter (fun g => (calAssess (getAmp (calSteps 1) (16 * g)).trim badReading).isNone)).length
    ∧ (∀ k : Fin 4, synLive worker k = false)
    ∧ (rbit (reg worker) 0x102 1 = false
        ∧ (getAmp (amp0 { wait := some 3 } worker) 0).wait = some 3 ∧ (getAmp worker 0).wait = none
        ∧ atBoundary (amp0 { wait := some 3 } worker) = true ∧ atBoundary (lateBy 1 worker) = false)
    ∧ (let s := words [(0x102, 0x000B)] worker; rbit (reg s) 0x102 1 = true ∧ s.ana.startTrim = false)
    ∧ ({ worker with ana := { worker.ana with startTrim := true } } : State).ana.startTrim = true := by decide +kernel

/-- The one pass has ended; an integrity step is due. -/
def checking (n : Nat) : State :=
  pass0 { started := true, ended := 1 } (gapAt n { mutuals with ana := { mutuals.ana with chkDue := true } })
theorem witness_IntegrityStepJudgesPins :
    (let s := checking (deadlineAt worker - 1792)
     s.jtag.ir ≠ .extest ∧ gapWork s = true ∧ s.ana.chkDue = true ∧ frameRan s = true ∧ 1792 ≤ gapClocks s ∧ inForcedGap s = false
      ∧ calGapFree s = false ∧ elNextBlock s = some 0 ∧ s.ana.verdict.length = 256 ∧ s.ana.earlier.length = 256 ∧ elTested s (32 * 0 + 1) = true)
    ∧ (gapClocks (checking (deadlineAt worker - 1791)) < 1792)
    ∧ (frameRan { mutuals with ana := { mutuals.ana with chkDue := true } } = false)
    ∧ (let s := { checking 0 with ana := { (checking 0).ana with earlier := upd (checking 0).ana.earlier 1 (fun _ => 2) } }
       elVerdict s 1 ⟨0, true, 0⟩ = 2 ∧ s.ana.earlier.getD 1 0 = 2 ∧ bit s.ana.elFen 1 = false ∧ elVerdict s 1 ⟨0, true, 0⟩ ≠ 0
        ∧ bit s.aux.adcFen (0 / 2) = false)
    ∧ (let s := { checking 0 with aux := { worker.aux with adcFen := 1 } }; frameRan s = true ∧ elNextBlock s = some 0 ∧ bit s.aux.adcFen (0 / 2) = true)
    ∧ (let s := { checking 0 with ana := { (checking 0).ana with elFen := 2, earlier := upd (checking 0).ana.earlier 1 (fun _ => 2) } }
       elTested s (32 * 0 + 1) = true ∧ bit s.ana.elFen 1 = true ∧ s.ana.earlier.getD 1 0 = elVerdict s 1 ⟨0, true, 0⟩)
    ∧ (let s := words [(0x203, 0x0A02)] worker
       (fld (reg s 0x203) 8 8 ≠ 0 ∧ 2000 * fld (reg s 0x203) 8 8 < 20001) ∧ (20000 ≤ 2000 * fld (reg s 0x203) 8 8 ∧ 500 * fld (reg s 0x203) 0 8 ≤ 1000)
       ∧ 999 < 500 * fld (reg s 0x203) 0 8 ∧ rf (reg s) 0x104 8 8 ≠ 0 ∧ 500 * rf (reg s) 0x104 8 8 < 20001 ∧ 20000 ≤ 500 * rf (reg s) 0x104 8 8) := by
  decide +kernel

/-- Shield driver 0 has been at its limit for n ns. -/
def limited (n : Nat) : State := { worker with ana := { worker.ana with shdTimes := upd worker.ana.shdTimes 0 (fun _ => [(0, n)]) } }
theorem witness_FencingRaisesAndLogs :
    ((getAmp (amp0 { due := true } worker) 0).due = true ∧ bit (amp0 { due := true } worker).ana.ampFen 0 = false
      ∧ (amp0 { due := true } worker).ana.amps.length = 128 ∧ (getAmp worker 0).due = false)
    ∧ (let s := { worker with ana := { worker.ana with elDue := 1 } }; bit s.ana.elDue 0 = true ∧ bit s.ana.elFen 0 = false ∧ atBoundary s = true
        ∧ s.flt.log.length = 64)
    ∧ (atBoundary (amp0 { due := true } worker) = true ∧ atBoundary (lateBy 1 worker) = false)
    ∧ (bit worker.ana.elDue 0 = false ∧ bit worker.ana.shdFen 0 = false)
    ∧ (1000000 ≤ ((limited 1000000).ana.shdTimes.getD 0 []).foldl (fun a x => a + x.2) 0
        ∧ ((limited 999999).ana.shdTimes.getD 0 []).foldl (fun a x => a + x.2) 0 < 1000000)
    ∧ (let s := pass0 { failFrames := 16 } worker; s.car.passes.length = 16 ∧ 16 ≤ (getPass s 0).failFrames ∧ (getPass s 0).pipeFen = false)
    ∧ (pass0 { failFrames := 16 } { worker with beat := {} }).beat.running = false
    ∧ (getPass (pass0 { failFrames := 15 } worker) 0).failFrames < 16 := by decide +kernel

/-- A row of one node has been decoded. -/
def decoded : State := pass0 { started := true, ended := 1, nodes := [⟨100, false, false⟩], checks := [some 100], seen := true } mutuals
theorem witness_PipelineRowWritesItsWords :
    (rowWaits decoded 0 0).isSome = true ∧ pipeWorks decoded 0 = true ∧ decoded.car.passes.length = 16
    ∧ 0 < rowCount (reg decoded) (actProg decoded) 0 ∧ (getPass decoded 0).pipe = none ∧ decoded.mem.bad = [] ∧ decoded.mem.soft = [] ∧ decoded.stored = true
    ∧ rowAgrees decoded 0 0 ((rowWaits decoded 0 0).getD 0) 0 = true
    ∧ (let s := setPass decoded 0 (fun p => { p with seat := 32, pipe := some { beat := 0, seq := 0 } })
       pipeWorks s 0 = true ∧ (rowWaits s 0 0).isSome = true ∧ rowAgrees s 0 0 ((rowWaits s 0 0).getD 0) 0 = true ∧ (getPass s 0).seat = 32) := by
  decide +kernel

/-- And has entered the pipeline. -/
def piped : State :=
  pass0 { started := true, ended := 1, nodes := [⟨100, false, false⟩], checks := [some 100], seen := true, rows := [0], pipe := some { beat := 0, seq := 0 } } mutuals
theorem witness_FinishedPassWritesItsHeader :
    piped.stored = true ∧ worker.stored = true ∧ piped.car.passes.length = 16 ∧ canFinish piped 0 = true ∧ canFinish worker 0 = false
    ∧ (getPass (after (.passDone 0) piped) 0).pipeFen = false
    ∧ (let s := setPass (words (mutualWords ++ [(pipeKey 0 0 1, 0x0080)]) piped) 0 (fun p => { p with failFrames := 15 })
       canFinish s 0 = true ∧ s.mem.bad = [] ∧ s.stored = true ∧ (getPass (after (.passDone 0) s) 0).pipeFen = true) := by decide +kernel

theorem witness_PassMarksFollowTheirCounts :
    (let s := pass0 { keys := [{ top := some 3, count := 6 }] } worker; s.car.passes.length = 16 ∧ 0 < (getPass s 0).keys.length
      ∧ ((getPass s 0).keys.getD 0 {}).cur = none ∧ ((getPass s 0).keys.getD 0 {}).top = some 3
      ∧ rf (reg s) (pipeKey (actProg s) 0 11) 6 4 + 1 ≤ ((getPass s 0).keys.getD 0 {}).count)
    ∧ (let s := pass0 { keys := [{ top := some 3, count := rf regReset (pipeKey 0 0 11) 6 4 }] } worker
       ((getPass s 0).keys.getD 0 {}).count < rf (reg s) (pipeKey (actProg s) 0 11) 6 4 + 1)
    ∧ (let s := pass0 { keys := [{ cur := some 1, quals := [(3, 6)] }] } worker; ((getPass s 0).keys.getD 0 {}).cur.isSome = true
      ∧ ((getPass s 0).keys.getD 0 {}).quals = [(3, 6)] ∧ rf (reg s) (pipeKey (actProg s) 0 11) 6 4 + 1 ≤ 6)
    ∧ (let s := pass0 { keys := [{ cur := some 1 }] } worker; ((getPass s 0).keys.getD 0 {}).cur.isSome = true
      ∧ ((getPass s 0).keys.getD 0 {}).quals = [])
    ∧ (let s := pass0 { negative := [64] } mutuals; pipeWorks s 0 = true ∧ s.stored = true ∧ s.car.passes.length = 16
      ∧ rf (reg s) (pipeKey (actProg s) 0 3) 0 8 ≠ 0 ∧ max 1 (rf (reg s) (pipeKey (actProg s) 0 3) 8 8) ≤ (getPass s 0).negative.getD 0 0)
    ∧ (let s := pass0 { negative := [63] } mutuals; (getPass s 0).negative.getD 0 0 < max 1 (rf (reg s) (pipeKey (actProg s) 0 3) 8 8))
    ∧ (let s := pass0 { frozen := [1000] } (words [(0x600, 0x0E41), (0x800, 0x0021), (0x1004, 1000)] worker); pipeWorks s 0 = true ∧ s.stored = true ∧ frzOut s 0 = [0])
    ∧ frzOut mutuals 0 = [] := by decide +kernel

theorem witness_PipelineCommandsReseatAndRetrack :
    (spaceOpen mutuals = true ∧ mutuals.car.passes.length = 16 ∧ fld (0x0010 : W16) 0 4 ∈ passList (reg mutuals) (actProg mutuals)
      ∧ ownsArea (reg mutuals) (actProg mutuals) (fld (0x0010 : W16) 0 4) = true ∧ fld (0x0010 : W16) 4 2 = 1 ∧ fld (0x0020 : W16) 4 2 = 2)
    ∧ fld (0x0011 : W16) 0 4 ∉ passList (reg mutuals) (actProg mutuals)
    ∧ (let s := words [(0x600, 0x0E48)] worker; ownsArea (reg s) (actProg s) 0 = false) := by decide +kernel

/-- A manager that streams deltas of pass 0, with the CRC-32 of one delta word 0, worked out outside the model. -/
def finished : State :=
  bytes [(0x200054, 0xFF), (0x200055, 0x12), (0x200056, 0xD9), (0x200057, 0x41)]
    (pass0 { image := some 0 } (words [(0x600, 0x0E41), (0x800, 0x0021), (0x1246, 1), (0x1247, 1)] manager))
/-- A BULK that waits. -/
def aBulk : Parcel := ⟨tyBulk, priOf tyBulk, 9, 0x1F0, 1, 1, 0, 0, []⟩
theorem witness_StreamsAndGesturesAreDelivered :
    (streamOn finished 0 = true ∧ coreRuns finished = true ∧ (getPass finished 0).image = some 0 ∧ finished.car.passes.length = 16
      ∧ (0 : W16).toNat % 2 ^ rf (reg finished) 0x1246 2 4 = 0
      ∧ bit finished.mem.granFen (gbase (reg finished) (actProg finished) 0 / 0x10000) = false ∧ finished.mem.bad = [] ∧ finished.mem.soft = []
      ∧ isManager finished = true ∧ streamRaw finished = false ∧ rowCount (reg finished) (actProg finished) 0 = 1 ∧ streamGood finished 0 0 = true
      ∧ (getPass finished 0).pipeFen = false ∧ (getPass (setPass finished 0 (fun p => { p with pipeFen := true })) 0).pipeFen = true)
    ∧ (∀ n : Fin 2, let s := { finished with pwr := worker.pwr, lnk := { worker.lnk with ports := upd worker.lnk.ports 0 (fun p => { p with bulk := List.replicate (4 * n) aBulk }) } }
       streamOn s 0 = true ∧ coreRuns s = true ∧ isManager s = false ∧ bulkRoom s = decide (n = 0) ∧ streamGood s 0 0 = true
        ∧ rowCount (reg s) (actProg s) 0 * ceilDiv (colCount (reg s) (actProg s) 0) 64 = 1)
    ∧ (let s := words [(0x600, 0x0E41), (0x800, 0x0021), (0x1246, 3), (0x1247, 1)] finished
       streamRaw s = true ∧ streamOn s 0 = true ∧ streamGood s 0 0 = true)
    ∧ (getPass worker 0).image = none
    ∧ (let s := { worker with car := { worker.car with gest := { found := [3] } } }; s.car.gest.found = [3] ∧ s.pwr.mode ≠ .watch)
    ∧ (let s := words [(0x1248, 4)] (inMode .watch .idle .watch { worker with car := { worker.car with gest := { found := [3] } } })
       s.car.gest.found = [3] ∧ s.pwr.mode = .watch ∧ s.pwr.change = .idle ∧ bit (reg s 0x1248) ((3 : BitVec 4).toNat - 1) = true)
    ∧ worker.car.gest.found = [] := by decide +kernel

/-! ### Converters and auxiliary channels -/

/-- n SENSE clocks after power-up, 16 into the frame. -/
def auxAt (n : Nat) (s : State) : State := { s with beat := { s.beat with clk := 16, now := n } }
/-- Eight samples of converter 0 whose sum is n above the codes that the others take. -/
def samples (n : Nat) : List (List Int) :=
  [[512 + n, 512, 512, 512, 512, 512, 512, 512], List.replicate 8 512, List.replicate 8 512, List.replicate 8 512]
theorem checkDev_samples (n : Nat) (h : n ≤ 3000) :
    checkDev (auxAt 0 worker) ((samples n).getD 0 []) = checkDev (auxAt 0 worker) ((samples n).getD 1 []) + n
    ∧ (checkDev (auxAt 0 worker) ((samples n).getD 1 [])).natAbs ≤ 8 := by
  have : checkCode (auxAt 0 worker) = 511 ∨ checkCode (auxAt 0 worker) = 512 ∨ checkCode (auxAt 0 worker) = 513 := by
    unfold checkCode; simp only [show (auxAt 0 worker).beat.no = 0 from rfl]; split
    · decide
    · split <;> decide
  simp only [checkDev, samples, List.getD_cons_zero, List.getD_cons_succ, List.replicate, List.map, List.foldl]
  simp only [limit]
  omega
theorem witness_CheckSlotsFenceDeviatedConverters :
    checkDue (auxAt 0 worker) = true ∧ checkDue (clk 15 worker) = false
    ∧ deviated (auxAt 0 worker) 0 1 (fun j => checkDev (auxAt 0 worker) ((samples 49).getD j [])) = true
    ∧ deviated (auxAt 0 worker) 0 1 (fun j => checkDev (auxAt 0 worker) ((samples 48).getD j [])) = false := by
  have ⟨a, a'⟩ := checkDev_samples 49 (by decide); have ⟨b, b'⟩ := checkDev_samples 48 (by decide)
  have c : chkLim (auxAt 0 worker) = 6 := by decide +kernel
  have d : ∀ k, bit (auxAt 0 worker).aux.adcFen k = false := fun k => BitVec.getLsbD_zero
  refine ⟨by decide +kernel, by decide +kernel, ?_, ?_⟩
  · rw [deviated, d, d, devLarge, c, if_neg Bool.false_ne_true, if_neg Bool.false_ne_true, Bool.and_eq_true, decide_eq_true_eq, decide_eq_true_eq]
    rw [a]; omega
  · rw [deviated, d, d, devLarge, c, if_neg Bool.false_ne_true, if_neg Bool.false_ne_true, Bool.and_eq_false_iff, decide_eq_false_iff_not]
    rw [b]; omega

/-- The comparator of channel 0 is on with mode word w and window 256 to 512; its last state; whether it has yet to take one. -/
def comparing (w : W16) (m : Mode) (last new : Bool) : State :=
  let s := words [(0x10015, w), (0x10016, 0x2010)] (inMode m .idle m worker)
  { s with aux := { s.aux with cmp := putBit 0 0 last, cmpNew := putBit 0 0 new } }
def sample : AuxSample := ⟨⟨700000, 650000, 650000, 700000⟩, 1200000⟩
/-- Channel 1's request waits, and the sequencer tracks channel ch of entry 0. -/
def urgent (n ch : Nat) (first : Option Nat) : State :=
  let s := words [(0x10000, 0x001C), (0x10080, BitVec.ofNat 16 ch)] (auxAt n worker)
  { s with aux := { s.aux with waiting := 2, phase := .track, first := first } }
theorem witness_CrossingsRequestUrgentConversions :
    (let s := comparing 0x0081 .scan false true; auxRuns s = true ∧ rbit (reg s) (axKey 0 5) 0 = true ∧ bit s.aux.cmpNew 0 = true
        ∧ cmpInside s 0 256 = true ∧ cmpInside s 0 255 = false ∧ cmpInside s 0 512 = true ∧ cmpInside s 0 513 = false)
    ∧ (let s := comparing 0x0081 .scan true false; auxRuns s = true ∧ rbit (reg s) (axKey 0 5) 0 = true ∧ bit s.aux.cmpNew 0 = false
        ∧ bit s.aux.cmp 0 = true ∧ cmpInside s 0 256 = true ∧ cmpInside s 0 513 = false ∧ crossing s 0 false = true
        ∧ rbit (reg s) (axKey 0 5) 7 = true ∧ s.pwr.mode = .scan)
    ∧ (let s := comparing 0x008B .scan false false; bit s.aux.cmpNew 0 = false ∧ bit s.aux.cmp 0 = false ∧ cmpInside s 0 263 = false
        ∧ cmpInside s 0 264 = true ∧ cmpInside s 0 504 = true ∧ cmpInside s 0 505 = false ∧ crossing s 0 true = true ∧ crossing s 0 false = false)
    ∧ (let s := comparing 0x0041 .watch true false; auxRuns s = true ∧ rbit (reg s) (axKey 0 5) 0 = true ∧ bit s.aux.cmpNew 0 = false
        ∧ bit s.aux.cmp 0 ≠ cmpInside s 0 513 ∧ crossing s 0 (cmpInside s 0 513) = true
        ∧ rbit (reg s) (axKey 0 5) 7 = false ∧ rbit (reg s) (axKey 0 5) 6 = true ∧ s.pwr.mode = .watch ∧ s.pwr.change = .idle)
    ∧ (∀ c : Fin 2, let v := auxNow (urgent 200 c (if c = 0 then none else some 1)); nextUrgent v = some 1 ∧ urgentFree v 1 = true
        ∧ ratiometric v 1 = true ∧ sample.vref ≠ 0 ∧ v.aux.phase = .track ∧ seqChan v = c ∧ (v.aux.first = some 1 ↔ c = 1))
    ∧ (let v := auxNow (urgent 199 0 none); nextUrgent v = some 1 ∧ urgentFree v 1 = false)
    ∧ nextUrgent (auxNow worker) = none := by
  decide +kernel

/-- The sequencer on, in phase p of entry 0, whose DELAY is five clocks, at n clocks; a sub-step of the gap whose residue ends at `res`. -/
def sequencing (p : SeqPhase) (n res : Nat) : State :=
  let s := words [(0x10000, 0x001C), (0x10081, 5)] (auxAt n worker)
  { s with aux := { s.aux with phase := p }, ana := { s.ana with subs := [{ burst := 0, upTo := res }] } }
theorem witness_SequencerConvertsItsEntries :
    (∀ n : Fin 6, let v := auxNow (sequencing .delay n 0); v.aux.phase = .delay ∧ seqStopped v = false
        ∧ (v.aux.since + entryDelay v ≤ v.beat.now ↔ n = 5))
    ∧ seqStopped (auxNow worker) = true
    ∧ (let v := auxNow (sequencing .track 200 0); seqFree v = true ∧ reservedIn v v.aux.effAdc.toNat (v.beat.clk + 1) 7 = false
        ∧ v.aux.cal.active = false ∧ sample.vref ≠ 0)
    ∧ (∀ n : Fin 2, let v := auxNow (sequencing .track 200 (if n = 0 then 49 else 55)); seqFree v = true
        ∧ reservedIn v v.aux.effAdc.toNat (v.beat.clk + 1) 7 = true ∧ v.aux.flight.any (fun c => isSeq c && slotNow v c) = false)
    ∧ reservedIn (auxNow (sequencing .track 200 56)) 3 17 7 = false
    ∧ seqFree (auxNow (sequencing .track 199 0)) = false ∧ seqFree (auxNow (sequencing .track 200 48)) = false := by decide +kernel

def flying (n : Nat) : State := auxAt n { worker with aux := { worker.aux with flight := [⟨3, 1000, false, .each, 3, 0, 0, 1⟩] } }
def flyingAs (k : Deliver) (n : Nat) : State := auxAt n { worker with aux := { worker.aux with flight := [⟨3, 1000, false, k, 3, 0, 0, 1⟩] } }
/-- Zone 0 on channel 3, at its threshold. -/
def urgentZone (s : State) : State :=
  let l : List (Nat × W16) := [(0x4800, 0x00C2), (0x4801, 0x2940), (0x4802, 0x0070), (0x4803, 1), (0x4804, 0)]
  zone0 { trip := false, bvalid := true } { s with regs := { staged := l, force := l }, aux := { s.aux with age := List.replicate 8 0 } }
theorem witness_AuxResultsDeliveredAndRead :
    (let v := auxNow (flying 18); v.aux.flight = [⟨3, 1000, false, .each, 3, 0, 0, 1⟩] ∧ 0 + 18 ≤ v.beat.now ∧ v.aux.last.length = 8
        ∧ v.aux.age.length = 8 ∧ swf regReset v.regs.force = true)
    ∧ (∀ k : Fin 3, let v := auxNow (flyingAs (if k = 0 then Deliver.urgent else Deliver.mean (decide (k = 1)) 4) 18)
        v.aux.flight = [⟨3, 1000, false, if k = 0 then Deliver.urgent else Deliver.mean (decide (k = 1)) 4, 3, 0, 0, 1⟩] ∧ 0 + 18 ≤ v.beat.now ∧ v.jtag.ir ≠ .extest
        ∧ v.zon.zones.length = 32)
    ∧ (let s := flyingAs Deliver.urgent 18
       let t := after (.auxResult false) (urgentZone s)
       zoneKind (reg t) 0 = 2 ∧ zoneIdx (reg t) 0 % 8 = 3 ∧ (getZone t 0).bvalid = true ∧ unmeasurable t 0 = false ∧ rf (reg t) (zoneKey 0 2) 0 4 = 0
        ∧ zoneOn t 0 ≤ (getZone t 0).metric)
    ∧ (let v := auxNow (flying 17); v.aux.flight = [⟨3, 1000, false, .each, 3, 0, 0, 1⟩] ∧ v.beat.now < 0 + 18)
    ∧ (hostAnswers worker = true ∧ inRun worker = true ∧ alive worker.pwr.sense = true ∧ coreRuns worker = true
        ∧ rbit (reg (settle worker)) 0x10000 1 = false)
    ∧ (let s := words [(0x10000, 0x000E)] worker; rbit (reg s) 0x10000 1 = true ∧ rbit (reg (settle s)) 0x10000 1 = true) := by decide +kernel

theorem witness_ExcitationMarksFollowTheirOutputs :
    (let s := words [(0x4800, 2)] worker; auxUnmeasurable s 0 = true ∧ s.zon.zones.length = 32 ∧ zoneKind (reg s) 0 = 2 ∧ zoneIdx (reg s) 0 % 8 = 0)
    ∧ (let s := words [(0x4800, 2)] { worker with aux := { worker.aux with age := List.replicate 8 0 } }; auxUnmeasurable s 0 = false)
    ∧ (let s := words [(0x1000C, 1)] worker; rbit (reg s) (0x1000C + 0) 0 = true ∧ senseRuns s = true ∧ bit s.aux.excLim 0 = false
        ∧ (excDrive s 0).isSome = true)
    ∧ bit ({ worker with aux := { worker.aux with excLim := 1 } }).aux.excLim 0 = true
    ∧ rbit (reg worker) (0x1000C + 0) 0 = false ∧ worker.aux.exs.length = 4
    ∧ (let half := 500000 + 50000 * rf (reg (words [(0x1000C, 0x0015)] worker)) (0x1000C + 0) 1 4; half = 1000000 ∧ 999999 < half ∧ half ≤ 1000000) := by
  decide +kernel

/-- A system calibration of channel 0 with these raw codes in. -/
def calibrating (span active clip : Bool) (got : Nat) (sum : Int) : State :=
  { worker with aux := { worker.aux with cal := { busy := true, active := active, span := span, got := got, sum := sum, clip := clip } } }
theorem witness_SystemCalibrationSetsCoefficients :
    ((fld (0x0010 : W16) 4 2 = 1 ∧ fld (0x0020 : W16) 4 2 = 2)
      ∧ (let s := calibrating false false false 0 0; spaceOpen s = true ∧ (auxNow s).aux.cal.busy = true)
      ∧ (let s := { worker with aux := { worker.aux with noAdc := true } }; spaceOpen s = true ∧ (auxNow s).aux.cal.busy = false ∧ (auxNow s).aux.noAdc = true)
      ∧ (let s := inMode .scan (.entering .hold 1) .hold worker; spaceOpen s = true ∧ (auxNow s).aux.cal.busy = false ∧ auxRuns (auxNow s) = false
          ∧ (auxNow s).regs.auxWait = [])
      ∧ (let s := words [(0x10000, 0x0010)] { worker with aux := { worker.aux with noAdc := true } }
         let s := { s with regs := { s.regs with auxWait := [(0x10008, 7)] } }
         (auxNow s).regs.auxWait = [(0x10008, 7)] ∧ auxRuns (auxNow s) = true ∧ (auxNow s).aux.noAdc = true ∧ (auxNow s).aux.cal.busy = false
          ∧ rbit (reg s) 0x10000 4 = true ∧ swf regReset s.regs.force = true)
      ∧ (let v := auxNow (sequencing .track 0 0); v.aux.cal.busy = false ∧ v.aux.noAdc = false ∧ auxRuns v = true ∧ seqStopped v = false)
      ∧ (let v := auxNow worker; v.aux.cal.busy = false ∧ v.aux.noAdc = false ∧ auxRuns v = true ∧ seqStopped v = true))
    ∧ (let v := auxNow (calibrating false false false 0 0); v.aux.cal.busy = true ∧ v.aux.cal.active = false ∧ seqStopped v = true)
    ∧ (let s := calibrating false true false 255 0
       let v := auxNow (auxAt 18 { s with aux := { s.aux with flight := [⟨0, 170, false, .cal, 3, 0, 0, 1⟩] } })
       v.aux.flight = [⟨0, 170, false, .cal, 3, 0, 0, 1⟩] ∧ 0 + 18 ≤ v.beat.now)
    ∧ (∀ b : Bool, let s := calibrating b true true 256 0; s.aux.cal.busy = true ∧ s.aux.cal.active = true ∧ 256 ≤ s.aux.cal.got
        ∧ s.aux.cal.ch < 8 ∧ swf regReset s.regs.force = true ∧ swf regReset s.regs.staged = true ∧ s.aux.cal.clip = true)
    ∧ (let s := calibrating false true false 256 (-32768 * 16); -32768 ≤ roundDiv s.aux.cal.sum 16)
    ∧ (let s := calibrating false true false 256 (32767 * 16 + 7); roundDiv s.aux.cal.sum 16 ≤ 32767 ∧ s.aux.cal.clip = false ∧ s.aux.cal.span = false)
    ∧ (∀ k : Fin 2, let s := words [(0x10009, if k = 0 then 0x0001 else 0x1000)] (calibrating true true false 256 (256 * (if k = 0 then 256 else 170)))
       let a := roundDiv s.aux.cal.sum 16 - (reg s (axKey 0 1)).toInt
       s.aux.cal.clip = false ∧ s.aux.cal.span = true ∧ a ≠ 0 ∧ 0 < roundDivI (16384 * spanTarget s) a ∧ roundDivI (16384 * spanTarget s) a < 65536)
    ∧ (let s := calibrating true true false 256 0; roundDiv s.aux.cal.sum 16 - (reg s (axKey 0 1)).toInt = 0)
    ∧ (let s := calibrating true true false 256 (256 * 170)
       roundDivI (16384 * spanTarget s) (roundDiv s.aux.cal.sum 16 - (reg s (axKey 0 1)).toInt) ≤ 0)
    ∧ (let s := words [(0x10009, 0x7FFF)] (calibrating true true false 256 16)
       65536 ≤ roundDivI (16384 * spanTarget s) (roundDiv s.aux.cal.sum 16 - (reg s (axKey 0 1)).toInt))
    ∧ (calibrating false true false 255 0).aux.cal.got < 256 ∧ worker.aux.cal.busy = false := by decide +kernel

/-! ### Zones, permits, lamps -/

/-- Zone 0 on auxiliary channel 0 with thresholds 100 and 50, words w1 and w2, a fresh value v. -/
def zoned (w1 w2 : W16) (z : Zone) (v : W16) : State :=
  let s := zone0 z (words [(0x4800, 2), (0x4801, w1), (0x4802, w2), (0x4803, 100), (0x4804, 50)] worker)
  { s with aux := { s.aux with age := List.replicate 8 0, last := List.replicate 8 v } }
/-- Zone 0 on the one node of pass 0, whose group is STALE, held for n frames. -/
def zoneHolding (n : Nat) : State :=
  let s := pass0 { stale := 1 } (words [(0x600, 0x0E41), (0x800, 0x0021), (0x4800, 1)] worker)
  let s := zone0 { trip := false, bvalid := true, hcnt := n } s
  { s with zon := { s.zon with sram := [(0, 1)] } }
theorem witness_ZonesTripAndRelease :
    (let s := zoned 0x2940 0x0070 { trip := false, bvalid := true, tcnt := 1 } 0; s.jtag.ir ≠ .extest ∧ s.zon.zones.length = 32 ∧ s.out.permits.length = 4 ∧ s.lnk.ports.length = 6 ∧ (getZone s 0).trip = false
      ∧ rf (reg s) (zoneKey 0 2) 0 4 + 1 ≤ (getZone s 0).tcnt ∧ r36 s 0 = false ∧ isWorker s = true)
    ∧ (let s := zone0 { trip := false } manager; (getZone s 0).trip = false ∧ r36 s 0 = true ∧ isWorker s = false)
    ∧ rf (reg (zoneHolding 2)) (zoneKey 0 1) 13 2 + 1 ≤ (getZone (zoneHolding 2) 0).hcnt
    ∧ (let s := words [(0x4A00, 1)] worker; 0 ∈ zonesOf s 0 ∧ 0 ∉ zonesOf s 1)
    ∧ (let s := zoned 0x2940 0x0070 { trip := false, bvalid := true } 0; (getZone s 0).tcnt < rf (reg s) (zoneKey 0 2) 0 4 + 1 ∧ r36 s 0 = false
        ∧ (getZone s 0).hcnt < rf (reg s) (zoneKey 0 1) 13 2 + 1)
    ∧ (let s := zoned 0x2940 0x0070 { bvalid := true, rcnt := 8 } 0; (getZone s 0).trip = true
        ∧ rf (reg s) (zoneKey 0 2) 4 8 + 1 ≤ (getZone s 0).rcnt ∧ r36 s 0 = false ∧ rbit (reg s) (zoneKey 0 1) 15 = false)
    ∧ (let s := zoned 0x2940 0x0070 { bvalid := true, rcnt := 7 } 0; (getZone s 0).rcnt < rf (reg s) (zoneKey 0 2) 4 8 + 1)
    ∧ r36 worker 0 = true ∧ rbit (reg (zoned 0xA940 0x0070 {} 0)) (zoneKey 0 1) 15 = true
    ∧ (let s := zoned 0xA940 0x0070 { bvalid := true, metric := 50 } 0; spaceOpen s = true ∧ s.zon.zones.length = 32 ∧ 0 / 16 = b2n false
        ∧ bit (1 : W16) 0 = true ∧ (getZone s 0).trip = true ∧ r36 s 0 = false ∧ (getZone s 0).metric ≤ zoneOff s 0) := by decide +kernel

theorem witness_EvaluationsAndBaselines :
    (let s := zoned 0x2940 0x0070 { trip := false, bvalid := true } 100; s.zon.zones.length = 32 ∧ unmeasurable s 0 = false ∧ zoneHeld s 0 = false
      ∧ (getZone s 0).bvalid = true ∧ (getZone s 0).trip = false ∧ zoneOn s 0 ≤ zoneLevel s 0 (zoneBz s 0)
      ∧ rf (reg s) (zoneKey 0 2) 0 4 ≤ (getZone s 0).tcnt)
    ∧ (let s := zoned 0x2940 0x0071 { trip := false, bvalid := true } 100; zoneOn s 0 ≤ zoneLevel s 0 (zoneBz s 0)
        ∧ (getZone s 0).tcnt < rf (reg s) (zoneKey 0 2) 0 4)
    ∧ (let s := zoned 0x2940 0x0070 { trip := false, bvalid := true } 99; zoneLevel s 0 (zoneBz s 0) < zoneOn s 0)
    ∧ (let s := zoned 0x2940 0x0070 { bvalid := true, rcnt := 7 } 50; (getZone s 0).trip = true ∧ zoneLevel s 0 (zoneBz s 0) ≤ zoneOff s 0
        ∧ rf (reg s) (zoneKey 0 2) 4 8 ≤ (getZone s 0).rcnt ∧ rbit (reg s) (zoneKey 0 1) 15 = false)
    ∧ (let s := zoned 0x2940 0x0070 { bvalid := true, rcnt := 6 } 50; (getZone s 0).rcnt < rf (reg s) (zoneKey 0 2) 4 8)
    ∧ (let s := zoned 0x2940 0x0070 { bvalid := true } 51; zoneOff s 0 < zoneLevel s 0 (zoneBz s 0))
    ∧ (let s := zoned 0x2940 0x0070 { trip := false, bvalid := true } 50; (getZone (evalZone s 0 (zoneHeld s 0)) 0).trip = false
        ∧ zoneLevel s 0 (zoneBz s 0) ≤ zoneOff s 0 ∧ zoneFixed (reg s) 0 = false ∧ rf (reg s) (zoneKey 0 1) 5 4 ≠ 0)
    ∧ (∀ n : Fin 2, unmeasurable (zoneHolding n) 0 = false ∧ zoneHeld (zoneHolding n) 0 = true ∧ (getZone (zoneHolding n) 0).bvalid = true)
    ∧ rf (reg (zoneHolding 1)) (zoneKey 0 1) 13 2 ≤ (getZone (zoneHolding 1) 0).hcnt
    ∧ (getZone (zoneHolding 0) 0).hcnt < rf (reg (zoneHolding 0)) (zoneKey 0 1) 13 2
    ∧ unmeasurable worker 0 = true
    ∧ (let s := zoned 0x2940 0x0070 {} 0; (getZone s 0).bvalid = false ∧ zoneHeld s 0 = false ∧ zoneKind (reg s) 0 ≠ 0)
    ∧ (let s := zoned 0x2940 0x0070 { evals := 32, since := 65 } 0
       let t := { s with beat := { s.beat with scanFrames := 32 } }
       let s := { s with beat := { s.beat with scanFrames := 33 } }
       t.beat.scanFrames = 32 ∧ (getZone t 0).inFrame = false ∧ s.jtag.ir ≠ .extest ∧ 33 ≤ s.beat.scanFrames ∧ 32 ≤ (getZone s 0).evals ∧ 64 < (getZone s 0).since ∧ rbit (reg s) 0x4800 15 = false)
    ∧ (let s := zoned 0x2940 0x0070 { evals := 32, inFrame := true } 0
       let t := { s with beat := { s.beat with scanFrames := 32 } }
       t.beat.scanFrames = 32 ∧ (getZone t 0).inFrame = true ∧ 32 ≤ (getZone t 0).evals)
    ∧ (zoneFixed (reg (zoned 0x2940 0x0070 { evals := 31 } 0)) 0 = false ∧ (getZone (zoned 0x2940 0x0070 { evals := 31 } 0) 0).evals < 32)
    ∧ (worker.beat.scanFrames < 32 ∧ (getZone worker 0).since ≤ 64)
    ∧ (spaceOpen (zoneHolding 0) = true ∧ (zoneHolding 0).stored = true)
    ∧ (sget zero16 (zoneHolding 0).zon.sram 0 ≠ 2 ∧ zoneUsesWord (zoneHolding 0) 0 = true ∧ rbit (reg (zoneHolding 0)) 0x4800 15 = false)
    ∧ (sget zero16 (zoneHolding 0).zon.sram 0 = 1 ∧ zoneUsesWord (zoneHolding 0) 1024 = false) := by decide +kernel

/-- Permit 0 on zone 0, which has been clear for 8 frames, the present one among them. -/
def permitted (p : Permit) : State :=
  zone0 { trip := false, clear := 8, seen := true } (permit0 p (words [(0x4A00, 1)] { worker with beat := { worker.beat with scanFrames := 33 } }))
/-- A manager whose permit 0 is on zone 1 of device 5, whose newest ALERT is `age` beats old; device 5 is on its tree. -/
def remoted (age : Nat) : State :=
  let s := words [(0x4B00, 0x8205), (0x4B01, 1)] manager
  { s with out := { s.out with remotes := [⟨5, 0, age⟩, ⟨6, 0, 15⟩] }, lnk := { s.lnk with members := [⟨5, 1, 0, true, 0⟩] } }
theorem witness_PermitsFollowTheirConditions :
    (let s := permitted {}; s.out.permits.length = 4 ∧ s.pwr.powered = true ∧ s.pwr.vfldOk = true ∧ s.pwr.refStop = false
      ∧ s.pwr.boot = .run ∧ s.pwr.mode = .scan ∧ sleepAsked s = false ∧ zonesOf s 0 = [0] ∧ (getZone s 0).trip = false ∧ entriesOf s 0 = []
      ∧ (getPermit s 0).force = false ∧ (getPermit s 0).fault = 0 ∧ s.jtag.ir ≠ .extest ∧ rf (reg s) 0x4A0A 0 8 + 1 = 8 ∧ 8 ≤ clearFrames s 0)
    ∧ (let s := zone0 { trip := false, clear := 7 } (permitted {}); clearFrames s 0 < rf (reg s) 0x4A0A 0 8 + 1)
    ∧ (33 ≤ (permitted {}).beat.scanFrames ∧ worker.beat.scanFrames < 33)
    ∧ (zonesOf worker 0 = [] ∧ entriesOf worker 0 = [] ∧ sleepAsked (inMode .scan .idle .hold worker) = true
        ∧ ({ worker with pwr := { worker.pwr with powered := false, refStop := true } } : State).pwr.refStop = true)
    ∧ (hostAnswers worker = true ∧ inRun worker = true ∧ (settle worker).out.permits.length = 4)
    ∧ (let s := permit0 { out := true } worker; (getPermit s 0).cmd = false ∧ (getPermit s 0).out = true ∧ s.pwr.vfldOk = true ∧ (getPermit s 0).fault = 0
        ∧ ∀ j : Fin 4, j ≠ 0 → (getPermit s j).cmd = false)
    ∧ (let s := permit0 { out := true } { worker with out := { worker.out with permits := List.replicate 4 { cmd := true } } }
       (getPermit s 0).cmd = false ∧ (getPermit s 0).out = true ∧ (getPermit s 1).cmd = true)
    ∧ (let s := permit0 { cmd := true } worker; s.jtag.ir ≠ .extest ∧ (getPermit s 0).cmd = true)
    ∧ (∀ b : Bool, let s := permit0 { fault := 3, judge := some 0, out := b } worker; s.jtag.ir ≠ .extest ∧ (getPermit s 0).fault = 3
        ∧ (getPermit s 0).judge = some 0 ∧ (getPermit s 0).out = b ∧ (getPermit s 0).cmd = false)
    ∧ ((getPermit worker 0).fault ≠ 3 ∧ spaceOpen worker = true ∧ (getPermit worker 0).act = false)
    ∧ worker.out.sinceAlert < 8
    ∧ (let s := { worker with out := { worker.out with sinceAlert := 8 } }; 8 ≤ s.out.sinceAlert ∧ isWorker s = true ∧ s.lnk.ports.length = 6)
    ∧ (let s := remoted 16; remoteOf s 5 = some ⟨5, 0, 16⟩ ∧ remoteLimit s ≤ 16 ∧ entriesOf s 0 = [0] ∧ entryDev s 0 = 5 ∧ entryTripped s 0 = true
        ∧ remoteOf s 6 = some ⟨6, 0, 15⟩ ∧ 15 < remoteLimit s)
    ∧ (let s := remoted 15; entriesOf s 0 = [0] ∧ entryTripped s 0 = false) := by
  decide +kernel

/-- Lamp 0 with duty 1,000 and 50 steps of current staged, n clocks after power-up. -/
def lit (n : Nat) (l : Lamp) : State := lamp0 l (words [(0x4D08, 50), (0x4D10, 1000)] { worker with beat := { worker.beat with now := n } })
/-- A sub-step of the gap keeps every edge. -/
def kept (s : State) : State := { s with ana := { s.ana with subs := [{ burst := 0, upTo := 100 }] } }
theorem witness_LampsFollowTheirPeriods :
    (lit 0 {}).out.lamps.length = 8
    ∧ (lit 4999 { next := 5000 }).beat.now < (getLamp (lit 4999 { next := 5000 }) 0).next
    ∧ (∀ b : Bool, let s := if b then lit 1000 {} else kept (lit 1000 {}); (getLamp s 0).next ≤ s.beat.now ∧ lampsRun s = true ∧ (getLamp s 0).on = false
        ∧ (getLamp s 0).short = false ∧ lampEdgeFree s = b ∧ (getLamp s 0).since + 1000 ≤ s.beat.now
        ∧ (getLamp s 0).idle < 1024
        ∧ 16 * ((min 62500 (max 500 (stg s 0x4D01).toNat) * fld (stg s (0x4D10 + 0)) 0 12 + 2048) / 4096) ≠ 0)
    ∧ (∀ n : Fin 2, let s := lit (999 + n) { on := true }; lampsRun s = true ∧ (getLamp s 0).on = true ∧ ((getLamp s 0).since + 1000 ≤ s.beat.now ↔ n = 1))
    ∧ (let s := words [(0x4D10, 0)] worker; (min 62500 (max 500 (stg s 0x4D01).toNat) * fld (stg s (0x4D10 + 0)) 0 12 + 2048) / 4096 = 0)
    ∧ (lampsRun (inBoot .tree (lit 0 {})) = false ∧ (getLamp (lit 0 { short := true }) 0).short = true ∧ (getLamp (lit 0 { hot := true }) 0).hot = true
        ∧ (getLamp (lit 0 {}) 0).gnded = false)
    ∧ (∀ b f : Bool, let s := (if f then id else kept) (words [(0x4D10, 0)] (lit 0 { on := b }))
        lampsRun s = true ∧ (getLamp s 0).on = b ∧ (getLamp s 0).short = false ∧ lampEdgeFree s = f ∧ (getLamp s 0).since + (getLamp s 0).len ≤ s.beat.now)
    ∧ (∀ n : Fin 2, ∀ b : Bool, let f := fun s => if b then s else kept s
        let s := f (lit (7 + n) { on := true, duty := 1000, len := 8 }); (getLamp s 0).on = true ∧ (getLamp s 0).duty ≠ 4095 ∧ lampEdgeFree s = b
        ∧ ((getLamp s 0).since + (getLamp s 0).len ≤ s.beat.now ↔ n = 1))
    ∧ ((getLamp (lit 0 { on := true, duty := 4095 }) 0).duty = 4095 ∧ (getLamp (lit 0 {}) 0).on = false)
    ∧ (∀ b : Bool, let s := lit 1000 { edge := some b, on := !b }; lampEdgeFree s = true ∧ (getLamp s 0).edge = some b ∧ lampsRun s = true
        ∧ (getLamp s 0).short = false)
    ∧ ((getLamp (lit 0 { edge := some true, short := true }) 0).short = true ∧ (getLamp (lit 0 {}) 0).edge = none)
    ∧ (getLamp (lit 0 { idle := 1023 }) 0).idle < 1024
    ∧ (∀ d b : Bool, ∀ f : Bool, let s := (if f then id else kept) (lit 0 { idle := 1024, dmode := d, cur := 10, on := b, duty := 1000 })
        1024 ≤ (getLamp s 0).idle ∧ lampsRun s = true ∧ (getLamp s 0).dmode = d ∧ (getLamp s 0).cur ≠ 0 ∧ (getLamp s 0).short = false
        ∧ (getLamp s 0).on = b ∧ (getLamp s 0).duty ≠ 4095 ∧ lampEdgeFree s = f ∧ s.beat.now = (getLamp s 0).begun)
    ∧ (∀ n : Fin 2, let s := lit (999 + n) { idle := 1024, dmode := true, cur := 5, begun := 999 + n }; s.beat.now = (getLamp s 0).begun ∧ lampsRun s = true ∧ (getLamp s 0).on = false
        ∧ ((getLamp s 0).since + 1000 ≤ s.beat.now ↔ n = 1))
    ∧ (getLamp (lit 0 { idle := 1024, dmode := true }) 0).cur = 0 := by decide +kernel

theorem witness_LampsFollowTheirPeriods_pulse :
    (let s := words [(0x4D10, 0)] (lit 7 { on := true, len := 8, edge := some false })
     (getLamp s 0).on = true ∧ s.beat.now < (getLamp s 0).since + (getLamp s 0).len)
    ∧ (let s := lit 1 { idle := 1024, dmode := true, cur := 10 }; s.beat.now ≠ (getLamp s 0).begun) := by decide +kernel
theorem witness_LampsFollowTheirPeriods_hot :
    let s := lit 1000 { on := true, hot := true, duty := 1000, len := 8 }; lampsRun s = true ∧ (getLamp s 0).on = true ∧ (getLamp s 0).hot = true
        ∧ (getLamp s 0).since + 1000 ≤ s.beat.now ∧ (getLamp s 0).duty ≠ 4095 ∧ lampEdgeFree s = true := by decide +kernel

/-! ### Carud -/

def hB : IHdr := ⟨0, 0, false, 0⟩
def hH : IHdr := ⟨0, 1, false, 0⟩
def hW : IHdr := ⟨0, 2, false, 0⟩
def hD : IHdr := ⟨0, 3, false, 0⟩
/-- hW with X. -/
def hX (x : W16) : IHdr := { hW with x := x }
/-- Carud with these changes to a worker. -/
def carud (f : Carud → Carud) : State := { worker with cpu := f worker.cpu }

theorem runs_worker : instrRuns worker hW ∧ instrRuns worker hD ∧ instrRuns worker hH ∧ instrRuns worker (hX 4) := by
  unfold instrRuns; decide +kernel

theorem witness_DataInstructionsComplete :
    (instrRuns worker hW ∧ destCheck (.areg 1) = none ∧ destLoc worker hW (.areg 1) = .ok (.reg 1) ∧ hW.sz ≠ 3 ∧ hW.x = 0
      ∧ threeOperand .add (fun _ a b => (a + b).setWidth 64)
      ∧ ∃ a b c1 c2, readOpd worker hW { s := worker } (.imm 5) = .ok (a, c1) ∧ readOpd worker hW c1 (.areg 2) = .ok (b, c2))
    ∧ (twoOperand .mov (fun h => h.x = 0) (fun _ a => a.setWidth 64) ∧ ∃ a c1, readOpd worker hW { s := worker } (.immx 0xDEADBEEF) = .ok (a, c1))
    ∧ (instrRuns worker hD ∧ hD.sz = 3 ∧ destCheck (.dir 0x100008) = none ∧ destLoc worker hD (.dir 0x100008) = .ok (.mem 0x100008)
      ∧ isAreg (.dir 0x100008) = false ∧ locate worker (.dir 0x100000) = .ok (.mem 0x100000)
      ∧ ∃ v c1, readD { s := worker } (.mem 0x100000) = .ok (v, c1))
    ∧ (memCheck (.dir 0x100000) = none)
    ∧ (locate (carud (fun c => { c with a := List.replicate 16 0xFFFF0000 })) (.node 0 0 false 0 0) = .ok .outside)
    ∧ (fld (hX 0x0304).x 10 6 = 0 ∧ instrRuns worker (hX 4))
    ∧ (instrRuns worker hH ∧ hH.sz = 1 ∧ destLoc worker hH (.areg 1) = .ok (.reg 1)
      ∧ ∃ a b c1 c2, readLoc { s := worker } (.reg 1) { hH with u := true } = .ok (a, c1) ∧ readOpd worker hH c1 (.imm 5) = .ok (b, c2)) := by
  refine ⟨⟨runs_worker.1, rfl, rfl, by decide, rfl, .inl ⟨rfl, rfl⟩, _, _, _, _, rfl, rfl⟩, ⟨.inl ⟨rfl, rfl, rfl⟩, _, _, rfl⟩,
    ⟨runs_worker.2.1, rfl, rfl, ?_, rfl, rfl, _, _, rfl⟩, rfl, ?_, ⟨by decide, runs_worker.2.2.2⟩, runs_worker.2.2.1, rfl, rfl, _, _, _, _, rfl, rfl⟩
  · rfl
  · rfl

theorem inMemory_words : inMemory 0 ∧ inMemory 0x3FFFC ∧ inMemory 0x100000 ∧ inMemory 0x11FFFC ∧ inMemory 0x200000 ∧ inMemory 0x2FFFFC
    ∧ ¬ inMemory 0x40000 ∧ ¬ inMemory 0x120000 ∧ ¬ inMemory 0x300000 := by
  unfold inMemory; decide

theorem witness_ResultsReachTheirDestination :
    (destLoc worker hW (.dir 0x100008) = .ok (.mem 0x100008) ∧ inMemory 0x100008 ∧ worker.stored = true ∧ worker.cpu.a.length = 16)
    ∧ (destCheck (.pinc 3 0) = none ∧ steps (.imm 5) ≠ some 3 ∧ steps (.pinc 3 0) = some 3
        ∧ destLoc (carud (fun c => { c with a := List.replicate 16 0x100000 })) hW (.pinc 3 0) = .ok (.mem 0x100000))
    ∧ (atLoopEnd worker.cpu = false ∧ worker.cpu.wrote = [] ∧ (plainValue worker hW (.imm 5)).isSome = true)
    ∧ (let c := (carud (fun c => { c with pc := 8, lpdepth := 1, lpe := [32, 0, 0], lpc := [2, 0, 0] })).cpu
       atLoopEnd c = true ∧ 1 < (listAt c.lpc (c.lpdepth - 1)).toNat)
    ∧ (let c := (carud (fun c => { c with pc := 8, lpdepth := 1, lpe := [32, 0, 0], lpc := [1, 0, 0] })).cpu
       atLoopEnd c = true ∧ (listAt c.lpc (c.lpdepth - 1)).toNat ≤ 1) := by
  refine ⟨⟨rfl, by unfold inMemory; decide, by decide +kernel, rfl⟩, ⟨rfl, by decide, rfl, rfl⟩, by decide +kernel, by decide +kernel, by decide +kernel⟩

theorem witness_PredicatesAndAccumulatorsFollowTheTable :
    ((hX 0x0051).x &&& 0xFC88 = 0 ∧ fld (hX 0x0051).x 4 3 ≤ 5 ∧ fld (hX 0x0051).x 0 3 ≠ 0 ∧ (hX 0x0302).x &&& 0xFCF8 = 0 ∧ hW.sz ≠ 3
      ∧ (∀ cc : Fin 2, (hX (BitVec.ofNat 16 (16 * (cc + 6) + 7))).x &&& 0xFC88 = 0 ∧ 6 ≤ fld (hX (BitVec.ofNat 16 (16 * (cc + 6) + 7))).x 4 3)
      ∧ ∀ cc : Fin 6, (hX (BitVec.ofNat 16 (16 * cc + 7))).x &&& 0xFC88 = 0 ∧ fld (hX (BitVec.ofNat 16 (16 * cc + 7))).x 4 3 = cc)
    ∧ (fld (hX 3).x 2 14 = 0 ∧ worker.cpu.flight = [] ∧ worker.cpu.wrote = [] ∧ (plainValue worker (hX 3) (.immx 7)).isSome = true
        ∧ (match readOpd worker (hX 3) { s := worker } (.dir 0x100000) with
            | .ok (a, c) => a == 0 && c.s.cpu.flight.isEmpty
            | .error _ => false) = true
        ∧ lenOf [Opd.immx 7, Opd.immx 7] = 5 ∧ lenOf [Opd.areg 1, Opd.areg 2] = 3)
    ∧ (∀ op : Fin 4, (hX (BitVec.ofNat 16 (0xC321 + 4096 * op))).x &&& 0x0888 = 0 ∧ fld (hX (BitVec.ofNat 16 (0xC321 + 4096 * op))).x 0 3 ≠ 0)
    ∧ ((hX 0xC320).x &&& 0x0888 = 0 ∧ fld (hX 0xC320).x 0 3 = 0)
    ∧ (worker.cpu.mq.length = 4 ∧ 3 < 4 ∧ 1 < 2 ∧ 2 ≤ 2 ∧ -2 ^ 47 ≤ signed (worker.cpu.mq.getD 3 0).toNat 48 + (-2 ^ 47 : Int)
        ∧ signed (worker.cpu.mq.getD 3 0).toNat 48 + (2 ^ 47 - 1 : Int) < 2 ^ 47 ∧ (2 : Int) ^ 47 ≤ signed (worker.cpu.mq.getD 3 0).toNat 48 + (2 ^ 47 : Int)
        ∧ signed (worker.cpu.mq.getD 3 0).toNat 48 + (-2 ^ 47 - 1 : Int) < -2 ^ 47)
    ∧ carudActs worker = true := by decide +kernel

theorem witness_FlowReachesItsTarget :
    (atLoopEnd worker.cpu = false ∧ worker.cpu.wrote = [] ∧ (4 * (worker.cpu.pc.toNat : Int) + 4 * (hX 4).x.toInt) % 2 ^ 32 < 0x40000)
    ∧ (0x40000 ≤ (4 * (worker.cpu.pc.toNat : Int) + 4 * (hX 0xFFFF).x.toInt) % 2 ^ 32
        ∧ (4 * (((carud (fun c => { c with pc := 0xFFFF })).cpu.pc.toNat : Nat) : Int) + 4 * (hX 1).x.toInt) % 2 ^ 32 = 0x40000)
    ∧ (worker.cpu.rs.length < 16 ∧ 16 ≤ (carud (fun c => { c with rs := List.replicate 16 0 })).cpu.rs.length ∧ worker.cpu.rswrap = false
        ∧ (carud (fun c => { c with rs := List.replicate 16 0, rswrap := true })).cpu.rswrap = true)
    ∧ (plainValue worker hW (.immx 0x3FFFC) = some 0x3FFFC ∧ plainValue worker hW (.immx 0x3FFFE) = some 0x3FFFE
        ∧ plainValue worker hW (.immx 0x40000) = some 0x40000 ∧ (0x3FFFC : W32).toNat < 0x40000 ∧ (0x3FFFC : W32).toNat % 4 = 0
        ∧ (0x3FFFE : W32).toNat % 4 ≠ 0 ∧ 0x40000 ≤ (0x40000 : W32).toNat)
    ∧ (worker.cpu.rs = [] ∧ bit (5 : W32) 16 = false ∧ bit (0x10005 : W32) 16 = true)
    ∧ (plainValue worker (hX 3) (.imm 2) = some 2 ∧ plainValue worker (hX 3) (.imm 0) = some 0 ∧ fld (hX 3).x 14 2 = 0
        ∧ (carud (fun c => { c with lpdepth := 2 })).cpu.lpdepth < 3 ∧ worker.cpu.lps.length = 3 ∧ worker.cpu.lpe.length = 3 ∧ worker.cpu.lpc.length = 3
        ∧ 3 ≤ (carud (fun c => { c with lpdepth := 3 })).cpu.lpdepth ∧ worker.cpu.lpdepth = 0) := by decide +kernel

/-- The timer's event is enabled and pending, or not; IE. -/
def evented (pend ie : Bool) (st : CarudSt) : State := carud (fun c => { c with evt := if pend then 0x80 else 0, evten := 0x80, ie := ie, st := st })
theorem witness_TrapsEnterTheirVectors :
    (worker.cpu.rs.length < 17 ∧ 17 ≤ (carud (fun c => { c with rs := List.replicate 17 0 })).cpu.rs.length ∧ worker.cpu.rswrap = false)
    ∧ (worker.cpu.fresh = false ∧ (carud (fun c => { c with fresh := true })).cpu.fresh = true)
    ∧ (carudActs worker = true ∧ eventDue worker = false ∧ isNopGuard { hW with g := 8 } = true ∧ isNopGuard { hW with g := 1 } = false
        ∧ guardOk worker { hW with g := 1 } = false)
    ∧ (hD.sz = 3 ∧ (hX 1).x ≠ 0 ∧ srcCheck (.imm 1) = none ∧ locate worker (.dir 0x100002) = .ok (.mem 0x100002) ∧ 0x100002 % 2 ^ hW.sz.toNat ≠ 0)
    ∧ (atLoopEnd worker.cpu = false ∧ worker.cpu.wrote = [])
    ∧ (fld (0x00800000 : W32) 20 4 = 8 ∧ fld (0x00000000 : W32) 20 4 ≠ 8 ∧ fld (0x00000000 : W32) 24 8 = 0)
    ∧ (fld (hX 5).x 4 12 = 0 ∧ evtPending worker = false ∧ evtPending (evented true false .running) = true)
    ∧ (coreRuns (evented true false .waiting) = true ∧ (evented true false .waiting).cpu.st = .waiting ∧ evtPending (evented true false .waiting) = true
        ∧ evtPending (evented false false .waiting) = false)
    ∧ (carudActs (evented true true .running) = true ∧ eventDue (evented true true .running) = true) := by
  refine ⟨?_, ?_, ?_, ⟨by decide, by decide, rfl, rfl, by decide⟩, ?_⟩ <;> decide +kernel

/-- A user instruction 0 of three operands whose microcode adds the second and the third. -/
def adder : State := carud (fun c => { c with micro := [(2, 0x2A00), (3, 0x0821), (0x800, 0x1E00)] })
theorem witness_GathersAndUserInstructionsComplete :
    (min (fld (hX 1).x 0 4 + 1) ((0 : Fin 16).val + 1) < fld (hX 1).x 0 4 + 1 ∧ min (fld (hX 1).x 0 4 + 1) ((1 : Fin 16).val + 1) = fld (hX 1).x 0 4 + 1
      ∧ instrRuns worker (hX 1) ∧ fld (hX 1).x 4 12 = 0 ∧ worker.cpu.gather = none ∧ worker.cpu.ie = false ∧ worker.stored = true
      ∧ worker.cpu.a.length = 16 ∧ memCheck (.dir 0x100000) = none ∧ memCheck (.dir 0x100100) = none ∧ memCheck (.dir 0x100200) = none
      ∧ locate worker (.dir 0x100000) = .ok (.mem 0x100000) ∧ locate worker (.dir 0x100100) = .ok (.mem 0x100100)
      ∧ locate worker (.dir 0x100200) = .ok (.mem 0x100200) ∧ worker.mem.bad = [] ∧ worker.mem.granFen = 0
      ∧ ∀ k : Nat, k < fld (hX 1).x 0 4 + 1 → (inMemory (0x100000 + k * 2 ^ hW.sz.toNat) ∧ inMemory (0x100200 + 2 * k)
          ∧ inMemory (0x100100 + (rd16 worker (0x100200 + 2 * k)).toNat * 2 ^ hW.sz.toNat))
        ∧ 0x100000 + (fld (hX 1).x 0 4 + 1) * 2 ^ hW.sz.toNat ≤ 0x100200 + 2 * k
        ∧ 0x100000 + (fld (hX 1).x 0 4 + 1) * 2 ^ hW.sz.toNat ≤ 0x100100 + (rd16 worker (0x100200 + 2 * k)).toNat * 2 ^ hW.sz.toNat)
    ∧ (instrRuns adder hW ∧ bit (decodeEntry adder 0) 9 = true ∧ [Opd.areg 1, .imm 2, .imm 3].length = fld (decodeEntry adder 0) 10 2
      ∧ userCheck hW (decodeEntry adder 0) [.areg 1, .imm 2, .imm 3] = none
      ∧ (∃ D, userBody adder hW (decodeEntry adder 0) [.areg 1, .imm 2, .imm 3] = .ok D))
    ∧ (plainValue adder hW (.imm 2) = some 2 ∧ plainValue adder hW (.imm 3) = some 3 ∧ fld (decodeEntry adder 0) 10 2 = 3
      ∧ bit (decodeEntry adder 0) 12 = true ∧ bit (decodeEntry adder 0) 14 = false ∧ fld (decodeEntry adder 0) 0 9 < 511
      ∧ fld (microEntry adder 0) 58 6 = 2 ∧ fld (microEntry adder 0) 55 3 = 0 ∧ fld (microEntry adder 0) 50 5 = 8
      ∧ fld (microEntry adder 0) 45 5 = 9 ∧ fld (microEntry adder 0) 40 5 = 10 ∧ fld (microEntry adder 1) 55 9 = 0)
    ∧ bit (decodeEntry worker 0) 9 = false
    ∧ (let s := evented false true .running; s.cpu.ie = true ∧ evtPending s = false ∧ s.cpu.timer = 0)
    ∧ (let s := carud (fun c => { c with a := List.replicate 16 0xFFFF0000 })
       memCheck (.node 0 0 false 0 0) = none ∧ locate s (.node 0 0 false 0 0) = .ok .outside)
    ∧ (worker.cpu.fresh = false ∧ worker.cpu.rs.length < 17 ∧ destCheck (.dir 0x100000) = none ∧ memCheck (.dir 0x100201) = none
        ∧ locate worker (.dir 0x100201) = .ok (.mem 0x100201) ∧ inMemory 0x100201 ∧ 0x100201 % 2 = 1) := by
  refine ⟨⟨by decide, by decide, by unfold instrRuns; decide +kernel, by decide, rfl, rfl, rfl, rfl, rfl, rfl, rfl, rfl, rfl, rfl, rfl, rfl, ?_⟩,
    ⟨by unfold instrRuns; decide +kernel, by decide +kernel, by decide +kernel, by decide +kernel, ?_⟩, by decide +kernel, by decide +kernel, by decide +kernel, ⟨rfl, rfl⟩,
    ⟨rfl, by decide, rfl, rfl, rfl, by unfold inMemory; decide, rfl⟩⟩
  · unfold inMemory; decide +kernel
  · exact ⟨_, rfl⟩

theorem witness_ControlTimerAndStackAccesses :
    (spaceOpen worker = true ∧ bit (1 : W16) 1 = false ∧ bit (1 : W16) 0 = true ∧ bit (0 : W16) 0 = false ∧ bit (2 : W16) 1 = true
      ∧ worker.cpu.fen = false ∧ worker.cpu.st = .running)
    ∧ (evented false false .waiting).cpu.st = .waiting
    ∧ (let s := carud (fun c => { c with st := .halted, halt := true }); s.cpu.halt = true ∧ s.cpu.fen = false ∧ s.cpu.st = .halted)
    ∧ (carud (fun c => { c with fen := true, st := .dfault })).cpu.fen = true
    ∧ (let s := carud (fun c => { c with timer := 2 }); coreRuns s = true ∧ s.cpu.timer ≠ 0 ∧ (s.cpu.timerClk + 399) / 200 < s.cpu.timer.toNat
        ∧ s.cpu.timer.toNat ≤ (s.cpu.timerClk + 400) / 200)
    ∧ worker.cpu.timer = 0
    ∧ (worker.pa.held = none ∧ worker.pa.late = [])
    ∧ (let s := { worker with pa := { worker.pa with held := some 5, ready := false } }; spaceOpen s = true ∧ coreRuns s = true ∧ s.cpu.fen = false
        ∧ s.cpu.st = .running ∧ s.pa.held ≠ none)
    ∧ (carudActs worker = true ∧ (carud (fun c => { c with rs := List.replicate 15 0 })).cpu.rs.length < 16
        ∧ 16 ≤ (carud (fun c => { c with rs := List.replicate 16 0 })).cpu.rs.length) := by decide +kernel

/-! ### Host registers, window, queues -/

/-- The window holds a half word of program RAM. -/
def halfWord (s : State) : State := { s with win := { s.win with held := some (2, 2, 7) } }
theorem witness_RegisterAccessesFollowTheirFields :
    (hostAnswers worker = true ∧ inRun worker = true ∧ worker.pwr.sense ≠ .off ∧ spaceOpen worker = true ∧ carudActs worker = true
      ∧ worker.car.syn.length = 4 ∧ worker.flt.log.length = 64)
    ∧ (let s := inBoot .load worker; hostAnswers s = true ∧ inRun s = false)
    ∧ (let s := after .hostSupplyLoss worker; hostAnswers s = false ∧ spaceOpen s = true ∧ hintLow s = false)
    ∧ (∀ b : Bool, let m := if b then Mode.hold else .dormant; let s := inMode m .idle m worker; hostAnswers s = true ∧ inRun s = true ∧ s.pwr.mode = m)
    ∧ (let s := inBoot .load worker; hostAnswers s = true ∧ inRun s = false ∧ s.pwr.boot ≠ .hostload)
    ∧ ((settle worker).car.run = none ∧ (settle (clk 9000 grouped)).car.run.isSome = true ∧ hostAnswers (clk 9000 grouped) = true
        ∧ spaceOpen (clk 9000 grouped) = true)
    ∧ (let s := halfWord worker; hostAnswers s = true ∧ spaceOpen s = true ∧ s.win.held ≠ none ∧ (settle s).win.held = none ∧ (settle s).stored = true
        ∧ (settle s).car.syn.length = 4)
    ∧ hintLow { worker with pwr := { worker.pwr with irqstat := 1 } } = true
    ∧ (takesForce (0x600 : W16).toNat ≠ .access ∧ accessBits (0x600 : W16).toNat = 0
        ∧ worker.stored = true)
    ∧ (let s := { worker with flt := { worker.flt with log := upd worker.flt.log 5 (fun _ => some ⟨1, 0, 0, 0, 0, 0, 0, 0, false⟩) } }
       s.flt.log.getD (5 : BitVec 6).toNat none = some ⟨1, 0, 0, 0, 0, 0, 0, 0, false⟩ ∧ s.flt.log.length = 64)
    ∧ ({ worker.win with held := some (2, 3, 7) } : Window).held ≠ none ∧ (inBoot .hostload worker).pwr.boot = .hostload ∧ hostAnswers (inBoot .hostload worker) = true
    ∧ ∀ side : Side, configAct worker side (0x600 : W16).toNat 0xFFFF = none := by
  refine ⟨?_, ?_, ?_, ?_, ?_, ?_, ?_, ?_, ?_, ?_, ?_, ?_, ?_, fun side => by cases side <;> rfl⟩ <;> decide +kernel

/-- The window at SEL and ADR of a worker, or of a manager for REMOTE. -/
def window (sel adr : W16) (f : Window → Window) : State := { worker with win := f { worker.win with sel := sel, adr := adr } }
def remote (f : Window → Window) : State :=
  { manager with
    win := f { manager.win with remadr := 5 }
    lnk := { manager.lnk with members := [⟨5, 1, 2, false, 0⟩], ports := upd manager.lnk.ports 2 (fun p => { p with st := .up }) } }
theorem witness_WindowReachesItsSpaces :
    (hostAnswers worker = true ∧ inRun worker = true ∧ worker.pwr.mode = .scan ∧ worker.stored = true ∧ worker.win.sel = 0 ∧ worker.win.held = none)
    ∧ (∀ sp : Fin 3, let s := window (BitVec.ofNat 16 (0x2000 * (sp + 1))) 0xFFFE id
        s.win.busy = false ∧ s.win.held = none ∧ fld s.win.sel 13 3 = sp + 1 ∧ fld s.win.sel 0 8 < spacePages (sp + 1) ∧ bit s.win.sel 8 = false
        ∧ (fld s.win.sel 0 8 * 65536 + s.win.adr.toNat) % 2 = 0 ∧ s.win.latch = none ∧ s.mem.bad = [])
    ∧ (window 0x4000 3 (fun w => { w with latch := some (3, 2, 7) })).win.latch = some (3, 2, 7)
    ∧ (let s := { window 0x4000 3 id with mem := { worker.mem with bad := [memAddr 2 3 / 4] } }
       (fld s.win.sel 0 8 * 65536 + s.win.adr.toNat) % 2 = 1 ∧ s.mem.bad.contains (memAddr 2 3 / 4) = true ∧ fld s.win.sel 13 3 ≠ 1)
    ∧ (window 0x4000 3 (fun w => { w with held := some (2, 2, 7) })).win.held = some (2, 2, 7)
    ∧ (let s := window 0x8000 0x081F id; fld s.win.sel 13 3 = 4 ∧ fld s.win.sel 0 8 = 0 ∧ s.win.adr.toNat < 0x820 ∧ s.pwr.lock = false ∧ s.win.busy = false)
    ∧ (locking true (window 0x8000 0 id)).pwr.lock = true
    ∧ (let s := window 0x40FF 0 id; fld s.win.sel 13 3 ≠ 7 ∧ spacePages (fld s.win.sel 13 3) ≤ fld s.win.sel 0 8)
    ∧ (let s := window 0 0 (fun w => { w with held := some (2, 3, 7) }); s.win.held = some (2, 3, 7) ∧ 2 < 65536 * spacePages 3
        ∧ s.mem.bad.contains (memAddr 3 2 / 4) = false ∧ s.win.busy = false ∧ s.win.buf = [])
    ∧ (window 0 0 (fun w => { w with busy := true })).win.busy = true := by decide +kernel
theorem witness_WindowReachesItsSpaces_remote :
    (worker.win.busy = false ∧ worker.win.buf = [])
    ∧ (bit (0x4300 : W16) 14 = true ∧ bit (0x4300 : W16) 6 = false ∧ bit (0x4300 : W16) 7 = false ∧ bit (0x0080 : W16) 7 = true
        ∧ bit (0x0080 : W16) 6 = false ∧ bit (0x0080 : W16) 14 = false)
    ∧ (let s := remote (fun w => { w with remadr := 0x1FF }); isManager s = true ∧ s.win.busy = false ∧ fld s.win.remadr 0 9 = 0x1FF)
    ∧ (let s := remote (fun w => { w with remadr := 6 }); noDevice s (remDev s) = true)
    ∧ (let s := remote (fun w => { w with sel := 0xE000 }); fld s.win.sel 13 3 = 7 ∧ s.win.buf = [] ∧ s.win.busy = false ∧ s.win.held = none)
    ∧ (let s := remote (fun w => { w with buf := [1, 2] }); hostAnswers s = true ∧ inRun s = true ∧ s.pwr.mode = .scan ∧ s.stored = true
        ∧ s.win.busy = false ∧ s.win.held = none ∧ s.win.buf ≠ [] ∧ isManager s = true ∧ fld s.win.remadr 0 9 ≠ 0x1FF
        ∧ noDevice s (remDev s) = false ∧ remPort s (remDev s) = some (2 : Fin 6).val ∧ s.lnk.ports.length = 6) := by decide +kernel

/-- The Report Queue of a worker. -/
def queued (q : Queue) : State := { worker with rq := q }
theorem witness_QueuesAndAssemblerMoveWords :
    (hostAnswers worker = true ∧ inRun worker = true ∧ worker.pwr.core ≠ .off ∧ worker.pwr.core = .run ∧ (getQueue (settle worker) false).words = [])
    ∧ (getQueue (settle (queued { words := [⟨7, true, false⟩] })) false).words = ⟨7, true, false⟩ :: []
    ∧ (bit (2 : W16) 1 = true ∧ bit (1 : W16) 1 = false ∧ bit (1 : W16) 0 = true ∧ bit (12 : W16) 1 = false ∧ bit (12 : W16) 0 = false)
    ∧ ((getQueue (queued { writing := [⟨7, true, false⟩] }) false).writing ≠ [] ∧ (getQueue (queued { flush := true }) false).flush = true
        ∧ (getQueue (queued { flush := true }) false).writing = [])
    ∧ (let q := getQueue (queued { ready := [(.link, [1, 2, 3])] }) false; q.flush = false ∧ q.writing = [] ∧ q.ready = [(.link, [1, 2, 3])]
        ∧ q.words.length + (packet q.drop [1, 2, 3]).length ≤ 8192)
    ∧ (let q := getQueue (queued { ready := [(.link, [1, 2, 3])], words := List.replicate 8190 ⟨0, false, false⟩ }) false
       8192 < q.words.length + (packet q.drop [1, 2, 3]).length)
    ∧ (carudActs worker = true ∧ worker.pa.ready = true ∧ min 252 (fld (0x01FF : W16) 0 8) ≠ 0 ∧ worker.pa.isOpen = false ∧ worker.stored = true)
    ∧ ({ worker with pa := { ready := false } } : State).pa.ready = false
    ∧ (let s := { worker with pa := { isOpen := true, left := 3, len := 8 } }; s.pa.isOpen = true ∧ 2 < s.pa.left.toNat)
    ∧ (∀ n : Fin 3, ∀ b : Bool, let s := { worker with pa := { isOpen := true, left := BitVec.ofNat 8 n, len := 8, bulk := b } }
        s.pa.isOpen = true ∧ s.pa.left.toNat ≤ 2 ∧ isWorker s = true ∧ s.pa.bulk = b ∧ s.lnk.ports.length = 6
        ∧ (getPort s (uplinkOf s.lnk.ringB)).bulk.length < 4)
    ∧ 4 ≤ (getPort (port0 { bulk := List.replicate 4 (mkParcel worker tyBulk 0x1F0 0 []) } worker) (uplinkOf worker.lnk.ringB)).bulk.length
    ∧ (min 252 (fld (0x0100 : W16) 0 8) = 0 ∧ worker.pa.ready = true)
    ∧ (isWorker manager = false ∧ (getQueue manager true).writing = [] ∧ (getQueue manager true).ready = []
        ∧ (getQueue { manager with rq := { writing := [⟨7, true, false⟩] } } false).writing ≠ []) := by decide +kernel

/-! ### T-Link and the tree -/

/-- A parcel, as a port receives it whole and next in sequence after LINKSEQ 0. -/
def parcel (typ : BitVec 6) (src dst : BitVec 9) (pl : List Byte) : Parcel :=
  ⟨typ, priOf typ, src, dst, 1, 1, BitVec.ofNat 8 pl.length, 0, pl⟩
def rx (p : Parcel) : RxParcel := ⟨p, maskedCrc p, false⟩
/-- With port k as it is, and every port enabled. -/
def linked (k : Nat) (p : Port) (s : State) : State :=
  words [(0x1500, 0x003F)] { s with lnk := { s.lnk with ports := upd s.lnk.ports k (fun _ => p) } }
def up : Port := { st := .up }

theorem witness_ParcelsAreCheckedAndTaken_line :
    (rxCommand .reportRx tyReport ∧ lineGood (linked 2 up worker) 2 ⟨parcel tyReport 9 0x1F0 [1, 2], 0, false⟩
      ∧ (0 : W32) ≠ maskedCrc (parcel tyReport 9 0x1F0 [1, 2]))
    ∧ (lineGood (linked 2 up worker) 2 (rx (parcel 0x3F 9 0x1F0 [])) ∧ typeDefined 0x3F = false)
    ∧ (lineGood (linked 2 { st := .up, rxSeq := 1 } worker) 2 (rx (parcel tyReport 9 0x1F0 [])) ∧ isSequenced tyReport = true
      ∧ ¬ inOrder (linked 2 { st := .up, rxSeq := 1 } worker) 2 (rx (parcel tyReport 9 0x1F0 []))) := by
  refine ⟨⟨.inl ⟨rfl, rfl⟩, ?_⟩, ?_⟩
  all_goals try unfold lineGood
  all_goals try unfold inOrder
  all_goals decide +kernel

theorem witness_ParcelsAreCheckedAndTaken_worker :
    (∀ i : Fin 5, let typ := [tyReport, tyBulk, tyAlert, tyFenceack, tyWinrsp].getD i tyReport
      let s := linked 2 up worker
      s.lnk.ports.length = 6 ∧ isWorker s = true ∧ isUplink s (2 : Fin 6) = false ∧ accepted s 2 (rx (parcel typ 9 0x1F0 [1, 2, 3, 4])) typ)
    ∧ (let s := linked 2 up { worker with lnk := { worker.lnk with ports := upd worker.lnk.ports 0 (fun p => { p with bulk := List.replicate 4 aBulk }) } }
      accepted s 2 (rx (parcel tyBulk 9 0x1F0 [1])) tyBulk ∧ 4 ≤ (getPort s (uplinkOf (sideOf s 2))).bulk.length)
    ∧ (let s := linked 0 up worker
      isUplink s (0 : Fin 6) = true ∧ accepted s 0 (rx (parcel tyFence 0x1F0 0x1FF [])) tyFence ∧ isRoot s = false
      ∧ accepted s 0 (rx (parcel tyWinreq 0x1F0 5 [0, 0, 0, 1, 0, 0, 0, 7])) tyWinreq ∧ ownAddr s = 5 ∧ s.pwr.boot = .run ∧ s.pwr.mode = .scan)
    ∧ (let s := linked 0 up (inMode .watch .idle .watch worker); s.pwr.mode ≠ .scan)
    ∧ (let s := linked 0 up (inBoot .load worker)
      let pl : List Byte := [0, 0, 0, 0, 0, 0, 0, 64, 9, 9, 9, 9, 0, 0, 0, 64]
      accepted s 0 (rx (parcel tyBootimg 0x1F0 0x1FF pl)) tyBootimg ∧ s.pwr.bootSrc = 0 ∧ s.pwr.boot = .load
      ∧ s.pwr.loaded = false ∧ s.stored = true ∧ beAt pl 0 4 = 0 ∧ s.lnk.imgGot = 0 ∧ (pl.drop 8).length = 8 ∧ 8 < beAt (pl.drop 8) 4 4)
    ∧ (let s := linked 0 up { linkLoading 8 with lnk := { worker.lnk with imgGot := 8 } }
      let pl : List Byte := [0, 0, 0, 8, 0, 0, 0, 64, 9]
      accepted s 0 (rx (parcel tyBootimg 0x1F0 0x1FF pl)) tyBootimg ∧ s.pwr.bootSrc = 0 ∧ s.pwr.boot = .load
      ∧ s.pwr.loaded = false ∧ s.stored = true ∧ beAt pl 0 4 = s.lnk.imgGot ∧ 8 ≤ beAt pl 0 4 ∧ 9 < imgLength s) := by
  refine ⟨?_, ?_, ?_, ?_, ?_, ?_⟩
  all_goals try unfold accepted
  all_goals try unfold lineGood
  all_goals try unfold inOrder
  all_goals decide +kernel

/-- Port 2 is UP, and n BOOTIMG parcels wait there. -/
def imageBehind (n : Nat) : State := linked 2 { st := .up, down := List.replicate n (parcel tyBootimg 0x1F0 0x1FF []) } (linked 0 up worker)
theorem witness_ParcelsAreCheckedAndTaken_room :
    imageRoom (imageBehind (Config.imageWait + 1)) 0 (parcel tyBootimg 0x1F0 0x1FF []) = false
    ∧ imageRoom (linked 0 up worker) 0 (parcel tyBootimg 0x1F0 0x1FF []) = true := by
  have h : imageDownlinks (imageBehind (Config.imageWait + 1)) 0 (parcel tyBootimg 0x1F0 0x1FF []) = [2] := rfl
  have h2 : (getPort (imageBehind (Config.imageWait + 1)) 2).down = List.replicate (Config.imageWait + 1) (parcel tyBootimg 0x1F0 0x1FF []) := rfl
  refine ⟨?_, rfl⟩
  unfold imageRoom
  rw [h, List.all_cons, h2, List.filter_replicate_of_pos (by decide), List.length_replicate, decide_eq_false (by omega)]
  rfl

/-- A manager whose port 2 is UP, with a report ring of n slots and its tail. -/
def ringed (n tail : W16) (s : State) : State :=
  let s := linked 2 up s
  words [(0x1400, 3), (0x1500, 0x003F), (0x1508, n), (0x150B, tail)] s
theorem witness_ParcelsAreCheckedAndTaken_manager :
    (∀ b : Bool, let s := ringed 4 1 manager
      let x := rx (parcel (if b then tyBulk else tyReport) 9 0x1F0 [1, 2])
      s.lnk.ports.length = 6 ∧ isManager s = true ∧ accepted s 2 x (if b then tyBulk else tyReport) ∧ x.p.dst = ownAddr s
      ∧ rf (reg s) 0x1508 0 9 ≠ 0 ∧ (s.lnk.head.toNat + 1) % rf (reg s) 0x1508 0 9 = rf (reg s) 0x150B 0 9
      ∧ s.lnk.ring = true ∧ rbit (reg s) 0x1400 (b2n b) = true ∧ coreRuns s = true ∧ s.pwr.boot = .run ∧ s.stored = true)
    ∧ (let s := ringed 4 0 manager; rf (reg s) 0x1508 0 9 ≠ 0 ∧ (s.lnk.head.toNat + 1) % rf (reg s) 0x1508 0 9 ≠ rf (reg s) 0x150B 0 9)
    ∧ rf (reg (ringed 0 0 manager)) 0x1508 0 9 = 0
    ∧ (let x := rx (parcel tyReport 9 0x1F1 []); accepted (ringed 4 0 manager) 2 x tyReport ∧ x.p.dst ≠ ownAddr manager)
    ∧ rbit (reg (linked 2 up manager)) 0x1400 0 = false
    ∧ accepted (ringed 4 0 manager) 2 (rx (parcel tyAlert 9 0x1F0 [0, 0, 0, 1])) tyAlert
    ∧ (let s := { ringed 4 0 manager with lnk := { (ringed 4 0 manager).lnk with ring := false } }
      let x := rx (parcel tyFence 0x1F1 0x1FF []); accepted s 2 x tyFence ∧ s.lnk.ring = false ∧ isCopy s x.p 0 = false)
    ∧ (let s := ringed 4 0 { manager with beat := { manager.beat with epoch := 1, done := false }, lnk := { manager.lnk with members := [⟨9, 1, 2, false, 0⟩] } }
      let x := rx (parcel tyFenceack 9 0x1F0 []); accepted s 2 x tyFenceack ∧ s.beat.done = false ∧ x.p.epoch = curEpoch s)
    ∧ (let s := ringed 4 0 { manager with beat := { manager.beat with epoch := 2, done := false } }
      let x := rx (parcel tyFenceack 9 0x1F0 []); accepted s 2 x tyFenceack ∧ x.p.epoch ≠ curEpoch s)
    ∧ (let s := { ringed 4 0 manager with win := { manager.win with busy := true, tag := some (7, false) } }
      (∀ e : Fin 3, accepted s 2 (rx (parcel tyWinrsp 9 0x1F0 [0, 7, BitVec.ofNat 8 e, 0, 1, 2])) tyWinrsp
        ∧ (byteAt [0, 7, BitVec.ofNat 8 e, 0, 1, 2] 2).toNat = e)
      ∧ w16 (beAt [0, 7, 0, 0, 1, 2] 0 2) = 7 ∧ w16 (beAt [0, 8, 0, 0, 1, 2] 0 2) ≠ 7) := by
  refine ⟨?_, ?_, ?_, ?_, ?_, ?_, ?_, ?_, ?_, ?_⟩
  all_goals try unfold accepted
  all_goals try unfold lineGood
  all_goals try unfold inOrder
  all_goals decide +kernel

def aParcel : Parcel := parcel tyHello 5 0x1F0 []
theorem witness_PortsTrainAndWindowsRun :
    (∀ i : Fin 2, let s := linked 0 { st := if i = 0 then .train else .up, beatSeen := true, pri2 := if i = 0 then [] else [aParcel] } worker
      let x := rx (parcel tyGrant 0x1F0 5 [])
      accepted s 0 x tyGrant ∧ isWorker s = true ∧ (getPort s 0).beatSeen = true ∧ (getPort s 0).unacked = [] ∧ s.pa.parcel = none
      ∧ x.p.frameq.toNat.testBit 1 = false ∧ (getPort s 0).beatDue = false ∧ isSequenced aParcel.typ = true ∧ s.pwr.mode ≠ .watch
      ∧ (getPort s 0).boxes = [] ∧ (getPort s 0).winrsp = [] ∧ (getPort s 0).bulk = [])
    ∧ (getPort (linked 0 { st := .up, beatSeen := true } worker) 0).pri2 = []
    ∧ (∀ i : Fin 2, let s := linked 2 { st := if i = 0 then .down else .up, window := true, unacked := [⟨aParcel, 1, false⟩, ⟨aParcel, 15, false⟩] } worker
      s.lnk.ports.length = 6 ∧ linkRuns s = true ∧ downlinkOn s (2 : Fin 6) = true ∧ (getPort s 2).window = true ∧ aParcel.linkseq = 1
      ∧ ((~~~(1 : Byte)) = ~~~(1 : Byte) ∧ (0 : Byte) ≠ ~~~(1 : Byte)))
    ∧ (∀ i : Fin 2, let s := linked 2 { st := if i = 0 then .train else .up, beatDue := decide (i = 0), down := [aParcel] } worker
      linkRuns s = true ∧ downlinkOn s (2 : Fin 6) = true ∧ (getPort s 2).window = false ∧ (getPort s 2).beatDue = decide (i = 0)
      ∧ (∀ u ∈ (getPort s 2).unacked, u.again = false) ∧ (getPort s 2).unacked.length < 4 ∧ s.pwr.mode ≠ .watch ∧ s.win.busy = false
      ∧ (getPort s 2).owed = false ∧ nextDown (getPort s 2).down = some aParcel)
    ∧ (let s := linked 2 { st := .up, unacked := [⟨aParcel, 1, true⟩] } worker; (getPort s 2).st = .up ∧ (getPort s 2).beatDue = false
      ∧ (getPort s 2).owed = false ∧ s.pwr.mode ≠ .watch ∧ (getPort s 2).window = false ∧ linkRuns s = true ∧ downlinkOn s (2 : Fin 6) = true)
    ∧ (let s := linked 2 { st := .up, unacked := [⟨aParcel, 1, true⟩], down := [aParcel] } (inMode .watch .idle .watch worker)
      s.pwr.mode = .watch ∧ linkRuns s = true ∧ downlinkOn s (2 : Fin 6) = true ∧ (getPort s 2).window = false ∧ aParcel.typ ≠ tyHeartbeat
      ∧ aParcel.typ ≠ tyTakeover)
    ∧ ((linked 0 up (inMode .watch .idle .watch worker)).pwr.mode = .watch ∧ isUplink (inMode .watch .idle .watch worker) (0 : Fin 6) = true
      ∧ 999999 < 1000000 ∧ worker.pwr.mode ≠ .watch ∧ worker.lnk.tmval = false ∧ 100000 ≤ 100000
      ∧ (let s : State := { worker with lnk := { worker.lnk with tmval := true, tmode := 1 } }; s.lnk.tmval = true ∧ s.lnk.tmode = 1))
    ∧ (let s := linked 2 { st := .up, owed := true } worker; (getPort s 2).beatDue = false ∧ (getPort s 2).owed = true)
    ∧ (let s := linked 2 {} worker; linkRuns s = true ∧ downlinkOn s (2 : Fin 6) = true ∧ helloGone s = true ∧ (getPort s 2).st = .down)
    ∧ helloGone (linked 0 { pri2 := [parcel tyHello 5 0x1F0 []] } worker) = false
    ∧ ((getPort (linked 2 { st := .up, window := true, lost := 6 } worker) 2).lost < 7 ∧ 7 ≤ (getPort (linked 2 { st := .up, window := true, lost := 7 } worker) 2).lost)
    ∧ (isUplink worker (0 : Fin 6) = true ∧ 99999 < 100000 ∧ 1000000 ≤ 1000000 ∧ (getPort (linked 0 up worker) 0).st = .up)
    ∧ (let s := linked 2 { st := .up, unacked := [⟨aParcel, 16, false⟩], tries := 8 } worker
      (getPort s 2).st ≠ .fenced ∧ (getPort s 2).unacked = ⟨aParcel, 16, false⟩ :: [] ∧ 16 ≤ 16 ∧ 8 ≤ (getPort s 2).tries ∧ linkRuns s = true)
    ∧ (getPort (linked 2 { st := .train, tries := 7 } worker) 2).tries < 8
    ∧ (let s := linked 0 {} worker
      accepted s 0 (rx (parcel tyBeat 0x1F0 0x1FF (List.replicate 14 0))) tyBeat ∧ isWorker s = true ∧ (getPort s 0).st = .down)
    ∧ (let s := linked 0 { st := .train } worker
      let x := rx (parcel tyBeat 0x1F0 0x1FF (List.replicate 12 0 ++ [3, 0xFF]))
      accepted s 0 x tyBeat ∧ (getPort s 0).st = .train ∧ beAt x.p.payload 12 2 ≠ 0 ∧ beAt x.p.payload 12 2 < 1024 ∧ rbit (reg s) 0x1500 7 = false)
    ∧ (let s := linked 0 up { worker with beat := { worker.beat with lockRun := 7 } }
      let x := rx (parcel tyBeat 0x1F0 0x1FF ([0, 0, 0, 9, 0, 0, 0, 8] ++ List.replicate 6 0))
      accepted s 0 x tyBeat ∧ (getPort s 0).st = .up ∧ s.lnk.beatSeen = 0 ∧ bit (byteAt x.p.payload 7) 3 = true ∧ 7 ≤ s.beat.lockRun
      ∧ (∀ i : Fin 2, let e : Int := (if i = 0 then 16 else 17) - beAt x.p.payload 12 2 % 1024 - beAt x.p.payload 4 3
          (if i = 0 then e.natAbs ≤ 16 else 16 < e.natAbs) ∧ e.natAbs ≤ 10 * s.beat.period))
    ∧ (∀ b : Bool, let s := { worker with lnk := { worker.lnk with beatSeen := if b then 2 else 0 } }; isWorker s = true ∧ s.lnk.beatB = false
      ∧ bit s.lnk.beatSeen 1 = b) := by
  refine ⟨?_, ?_, ?_, ?_, ?_, ?_, ?_, ?_, ?_, ?_, ?_, ?_, ?_, ?_, ?_, ?_⟩
  all_goals try unfold accepted
  all_goals try unfold lineGood
  all_goals try unfold inOrder
  all_goals decide +kernel

/-- A HELLO and an ENUM with route 3, as many hops, and the address. -/
def routed (typ : BitVec 6) (hops adr : Byte) : Parcel := parcel typ 0 0x1F0 [0, 0, 0, 0, 3, hops, 0, adr, 0, 0, 0, 0]
theorem witness_TreeFormsAndManagersWatch_tree :
    (let s := linked 0 { granted := some 1 } (homeless worker); s.lnk.ports.length = 6 ∧ isWorker s = true ∧ linkRuns s = true ∧ s.lnk.addr = 0
      ∧ (getPort s 0).granted = some 1 ∧ s.lnk.helloSent = false ∧ 5000 * (1 : BitVec 3).toNat ≤ 5000 ∧ 4999 < 5000 * (1 : BitVec 3).toNat)
    ∧ ({ homeless worker with lnk := { helloSent := true } } : State).lnk.helloSent = true
    ∧ (let s := linked 2 up worker; let x := rx (routed tyHello 0 9); accepted s 2 x tyHello ∧ s.stored = true ∧ isWorker s = true ∧ isUplink s (2 : Fin 6) = false
      ∧ payRoute x.p + writtenPort s (2 : Fin 6) * 8 ^ s.lnk.depth < 2 ^ 36 ∧ payHops x.p = 0 ∧ s.lnk.depth < 255 ∧ payAddr x.p ≠ 0)
    ∧ (let s := linked 2 up manager; let x := rx (routed tyHello 1 0); accepted s 2 x tyHello ∧ isManager s = true ∧ s.lnk.ring = true ∧ payAddr x.p = 0
      ∧ (assign s (payRoute x.p / 8 * 8 + (2 : Fin 6)) 1).isSome = true)
    ∧ (let s := linked 2 up { manager with lnk := { manager.lnk with ring := false } }; s.lnk.ring = false ∧ isManager s = true)
    ∧ (let s := linked 2 up manager; let x := rx (routed tyHello 1 9); accepted s 2 x tyHello ∧ s.lnk.ring = true ∧ s.pwr.imgBcast = false ∧ payAddr x.p ≠ 0)
    ∧ (∀ b : Bool, let s := linked 0 up (inBoot .load (homeless { worker with pwr := { worker.pwr with loaded := b } }))
      accepted s 0 (rx (routed tyEnum 1 9)) tyEnum ∧ isUplink s (0 : Fin 6) = true ∧ s.lnk.addr = 0 ∧ s.pwr.loaded = b ∧ s.pwr.boot = .load
      ∧ s.pwr.reload = false)
    ∧ (isManager manager = true ∧ manager.lnk.ports.all (fun p => p.st != .train) = true ∧ manager.pwr.boot = .run)
    ∧ (let s := inBoot .tree manager; s.lnk.ring = true ∧ s.pwr.boot = .tree ∧ s.pwr.imgBcast = false ∧ s.pwr.reload = false)
    ∧ (let s := linked 2 up (inBoot .tree { manager with pwr := { manager.pwr with imgBcast := true } }); s.pwr.imgBcast = true ∧ upPorts s ≠ [])
    ∧ (let s := inBoot .tree { manager with lnk := { manager.lnk with enumerated := true } }
      s.lnk.ring = true ∧ s.pwr.boot = .tree ∧ s.lnk.enumerated = true ∧ imageWaits s = false ∧ s.pwr.reload = false)
    ∧ (let s := linked 2 { st := .up, down := [parcel tyBootimg 0x1F0 0x1FF [0, 0, 0, 0, 0, 0, 0, 64, 9]] } (inBoot .tree { manager with lnk := { manager.lnk with enumerated := true } })
      s.lnk.enumerated = true ∧ imageWaits s = true) := by
  refine ⟨?_, ?_, ?_, ?_, ?_, ?_, ?_, ?_, ?_, ?_, ?_, ?_⟩
  all_goals try unfold accepted
  all_goals try unfold lineGood
  all_goals try unfold inOrder
  all_goals decide +kernel

/-- No address is left to assign: every entry of the routing table is valid, with route 0 and no hops. -/
def table : List Nat → List (Nat × W16) := List.map (fun a => (0x7002 + 4 * a, 0x8000))
theorem sget_table_all : ∀ (l : List Nat) (k : Nat), sget regReset (table l) k = regReset k ∨ sget regReset (table l) k = 0x8000
  | [], _ => .inl rfl
  | a :: t, k => by
    simp only [table, List.map_cons, sget]
    split
    · exact .inr rfl
    · split
      · exact .inl rfl
      · exact sget_table_all t k
theorem sget_table_listed : ∀ (n b a : Nat), b ≤ a → a < b + n → sget regReset (table (List.range' b n)) (0x7002 + 4 * a) = 0x8000
  | 0, _, _, h1, h2 => by omega
  | n + 1, b, a, h1, h2 => by
    simp only [table, List.range'_succ, List.map_cons, sget]
    split
    · rfl
    · rw [if_neg (by omega)]; exact sget_table_listed n (b + 1) a (by omega) (by omega)
theorem witness_TreeFormsAndManagersWatch_full (rt : Nat) : assign (words (table (List.range' 1 0x18E)) manager) rt 1 = none := by
  have word : ∀ a, a < 512 → regReset (0x7002 + 4 * a) = 0 := by decide +kernel
  have none1 : (List.range 512).find? (fun a => rtValid (words (table (List.range' 1 0x18E)) manager) a
      && rtRoute (words (table (List.range' 1 0x18E)) manager) a == rt && rtHops (words (table (List.range' 1 0x18E)) manager) a == 1) = none := by
    rw [List.find?_eq_none]
    intro a ha
    have h := sget_table_all (List.range' 1 0x18E) (0x7002 + 4 * a)
    rw [word a (List.mem_range.mp ha)] at h
    have : rtHops (words (table (List.range' 1 0x18E)) manager) a = 0 := by
      unfold rtHops rf reg words
      rcases h with h | h <;> simp only [h] <;> decide
    simp [this]
  have none2 : ((List.range 0x18E).map (fun a => a + 1)).find? (fun a => !(rtValid (words (table (List.range' 1 0x18E)) manager) a)) = none := by
    rw [List.find?_eq_none]
    intro a ha
    obtain ⟨b, hb, rfl⟩ := List.mem_map.mp ha
    have := sget_table_listed 0x18E 1 (b + 1) (by omega) (by have := List.mem_range.mp hb; omega)
    unfold rtValid rbit reg words
    simp only [this]
    decide
  unfold assign
  rw [none1, none2]

theorem witness_TreeFormsAndManagersWatch_managers :
    (let s := linked 2 up manager; let x := rx (parcel tyHeartbeat 0x1F0 0x1FF [0, 0, 0, 1, 1]); accepted s 2 x tyHeartbeat ∧ isManager s = true ∧ x.p.src = ownAddr s)
    ∧ (∀ b : Byte, b = 0 ∨ b = 3 → let s := linked 2 up { manager with lnk := { manager.lnk with stby := true } }
      let x := rx (parcel tyHeartbeat 0x1F1 0x1FF [0, 0, 0, 1, b])
      accepted s 2 x tyHeartbeat ∧ x.p.src ≠ ownAddr s ∧ isCopy s x.p (BitVec.ofNat 32 (beAt x.p.payload 0 4)) = false ∧ s.lnk.stby = true
      ∧ bit (byteAt x.p.payload 4) 0 = bit b 0)
    ∧ (let s := linked 2 up { manager with lnk := { manager.lnk with service := 3 } }
      let x := rx (parcel tyHeartbeat 0x1F1 0x1FF [0, 0, 0, 1, 1])
      accepted s 2 x tyHeartbeat ∧ x.p.src ≠ ownAddr s ∧ isCopy s x.p (BitVec.ofNat 32 (beAt x.p.payload 0 4)) = false ∧ s.lnk.stby = false ∧ s.lnk.service ≤ 3)
    ∧ (let s := linked 2 up manager; let x := rx (parcel tyTakeover 0x1F1 0x1FF [0, 0, 0, 1]); accepted s 2 x tyTakeover ∧ isCopy s x.p 0 = false ∧ x.p.src ≠ ownAddr s)
    ∧ (let s := { manager with lnk := { manager.lnk with ring := false, stby := true, miss := 3 } }
      s.lnk.ports.length = 6 ∧ s.lnk.stby = true ∧ selfFault s = false ∧ s.lnk.miss = 3)
    ∧ manager.lnk.stby = false
    ∧ (∀ n : Fin 2, let s := { manager with pwr := { manager.pwr with role := .managerB }, lnk := { manager.lnk with ring := false, service := n + 3 } }
      s.pwr.role = .managerB ∧ s.lnk.ring = false ∧ s.lnk.stby = false ∧ s.pwr.boot = .run ∧ s.lnk.hbSeen = false ∧ s.lnk.service = n.val + 3)
    ∧ (let s := { manager with lnk := { manager.lnk with standbyDue := true, strapDue := true } }; s.lnk.standbyDue = true ∧ s.pwr.boot ≠ .tree
      ∧ s.lnk.strapDue = true)
    ∧ (manager.lnk.standbyDue = false ∧ manager.lnk.strapDue = false) := by
  refine ⟨?_, fun b h => ?_, ?_, ?_, ?_, ?_, ?_, ?_, ?_⟩
  rotate_left
  · rcases h with rfl | rfl
    all_goals unfold accepted
    all_goals unfold lineGood
    all_goals unfold inOrder
    all_goals decide +kernel
  all_goals try unfold accepted
  all_goals try unfold lineGood
  all_goals try unfold inOrder
  all_goals decide +kernel

/-! ### Repair, scrubbing, boundary scan, invariants -/

/-- With FUNIT naming the unit of class c and index i, and these repair fields. -/
def repairing (c i : Nat) (f : Faults → Faults) (s : State) : State :=
  words [(0x1700, BitVec.ofNat 16 (c + 16 * i))] { s with flt := f s.flt }
theorem witness_RepairTestsAndUnfencing_commands :
    (spaceOpen worker = true ∧ fld (0x5A01 : W16) 8 8 = 0x5A ∧ fld (0x5A01 : W16) 0 2 = 1 ∧ fld (0x5A02 : W16) 0 2 = 2 ∧ fld (0x5901 : W16) 8 8 ≠ 0x5A
        ∧ fld (0x5A00 : W16) 0 2 = 0 ∧ fld (0x5A03 : W16) 0 2 = 3)
    ∧ (repairing 2 5 (fun f => { f with busy := true }) worker).flt.busy = true
    ∧ (let s := repairing 2 5 id worker; s.flt.busy = false ∧ s.pwr.mode = .scan
        ∧ unitExists ⟨BitVec.ofNat 4 (fld (reg s 0x1700) 0 4), BitVec.ofNat 8 (fld (reg s 0x1700) 4 8)⟩ = true
        ∧ s.flt.tested ≠ some ⟨BitVec.ofNat 4 (fld (reg s 0x1700) 0 4), BitVec.ofNat 8 (fld (reg s 0x1700) 4 8)⟩)
    ∧ (let s := repairing 10 5 id worker; unitExists ⟨BitVec.ofNat 4 (fld (reg s 0x1700) 0 4), BitVec.ofNat 8 (fld (reg s 0x1700) 4 8)⟩ = false)
    ∧ (let s := repairing 2 5 (fun f => { f with tested := some ⟨2, 5⟩, ok := true }) { worker with ana := { worker.ana with ampFen := 0x20 } }; s.pwr.mode = .scan ∧ isFenced s ⟨2, 5⟩ = true ∧ s.flt.tested = some ⟨2, 5⟩ ∧ s.flt.ok = true ∧ s.flt.stale = false
        ∧ BitVec.ofNat 4 (fld (reg s 0x1700) 0 4) = 2 ∧ BitVec.ofNat 8 (fld (reg s 0x1700) 4 8) = 5) := by decide +kernel

/-- A test of a unit of class c in progress for n frames. -/
def testing (c : Nat) (n : Nat) : State := { worker with flt := { worker.flt with busy := true, tested := some ⟨BitVec.ofNat 4 c, 0⟩, frames := n } }
theorem witness_RepairTestsAndUnfencing :
    (∀ c : Fin 16, (testing c 0).flt.tested = some ⟨BitVec.ofNat 4 c, 0⟩ ∧ (testing c 0).flt.busy = true ∧ (testing c 0).stored = true)
    ∧ (∀ n : Fin 2, let s := gapAt 0 (testing 2 n); testGap s 496 = true ∧ calUpTo s s.car.lastEnd 2 ≤ deadlineAt s ∧ s.flt.frames = n
        ∧ testGap (gapAt 0 (testing 3 n)) 1792 = true)
    ∧ (let s := gapAt 0 { testing 2 0 with aux := { worker.aux with adcFen := 1 } }; testGap s 496 = true ∧ bit s.aux.adcFen (0 / 32) = true)
    ∧ (let s := gapAt 99999 (testing 2 0); testGap s 496 = false ∧ testGap s 1792 = false)
    ∧ (64 ≤ (testing 1 64).flt.frames ∧ (testing 1 63).flt.frames < 64 ∧ 64 < (testing 4 65).flt.frames ∧ (testing 4 64).flt.frames ≤ 64)
    ∧ ({ worker with flt := { worker.flt with tested := some ⟨2, 0⟩ } } : State).flt.busy = false
    ∧ ((testing 6 0).mem.bad = [] ∧ (testing 6 0).mem.soft = [])
    ∧ (let s := { testing 6 0 with mem := { worker.mem with bad := [3] } }; 3 ∈ s.mem.bad ∧ 4 * 3 < 0x40000)
    ∧ (worker.flt.pending = [] ∧ atBoundary (lateBy 1 worker) = false ∧ atBoundary worker = true)
    ∧ (let s := { worker with flt := { worker.flt with pending := [(⟨7, 15⟩, 0)] } }
       s.flt.pending = [(⟨BitVec.ofNat 4 7, 15⟩, 0)] ∧ (15 : Byte).toNat < 16 ∧ s.car.passes.length = 16 ∧ s.lnk.ports.length = 6 ∧ s.zon.zones.length = 32
       ∧ s.ana.amps.length = 128 ∧ s.ana.verdict.length = 256)
    ∧ (coreRuns worker = true ∧ worker.mem.bad.contains ((0x11FFFC : W32).toNat / 4) = false ∧ worker.mem.soft.contains ((0x11FFFC : W32).toNat / 4) = false
       ∧ (0x11FFFC : W32).toNat < 0x200000 ∧ 0x200000 ≤ (0x200000 : W32).toNat ∧ bit worker.mem.granFen (((0x200000 : W32).toNat - 0x200000) / 65536) = false)
    ∧ (senseRuns worker = true ∧ worker.zon.bad.contains (5 : BitVec 15).toNat = false ∧ zoneUsesWord worker (5 : BitVec 15).toNat = false)
    ∧ zoneUsesWord (zoneHolding 0) (0 : BitVec 15).toNat = true ∧ (zoneHolding 0).jtag.ir ≠ .extest
    ∧ (let s := after .jtagExtest worker; senseRuns s = true ∧ s.jtag.ir = .extest ∧ s.zon.zones.length = 32) := by decide +kernel

theorem witness_BoundaryScanHoldsAndResets :
    worker.jtag.ir ≠ .extest ∧ worker.pwr.powered = true ∧ (after .jtagExtest worker).jtag.ir = .extest ∧ (after .jtagExtest worker).pwr.powered = true
    ∧ ({ worker with pwr := { worker.pwr with powered := false } } : State).pwr.powered = false
    ∧ (let s := after .jtagExtest (after .hostSupplyLoss worker); s.jtag.ir = .extest ∧ s.pwr.powered = true ∧ s.pwr.hostOk = false) := by decide +kernel

theorem witness_EveryStepKeepsStorageCanonical :
    State.reset.stored = true ∧ step { State.reset with pending := [.powerOnReset] } = .next { (after .powerOnReset State.reset) with pending := [] } := by
  exact ⟨rfl, rfl⟩

theorem witness_PermitsStayUnderTheirConditions :
    let s := permitted { cmd := true }
    permitsHeld s ∧ (getPermit s 0).cmd = true ∧ (getPermit (after (.permitForce 1) s) 0).cmd = false
    ∧ step { s with pending := [.scratchWrite 7] } = .next { s with pwr := { s.pwr with scratch := 7, irqstat := 0x2000 } } := by
  refine ⟨?_, rfl, by decide +kernel, rfl⟩
  unfold permitsHeld
  refine ⟨by decide +kernel, ?_, nofun, nofun⟩
  intro k
  match k with
  | 0 => intro _; unfold permitMay; decide +kernel
  | 1 | 2 | 3 => nofun

/-! ### Ill-formed commands, one for each check -/

def input (coup : List (List Nat)) (extra : List (List Int)) (early : Nat) (unit : List Nat) : GroupInput := ⟨3300, coup, extra, early, unit⟩
theorem test_wf_refuses :
    Instr.wf (.beatEdge 0) = false ∧ Instr.wf (.groupStart 0 18 0 (input [] [] 0 [])) = false
    ∧ Instr.wf (.groupStart 0 0 0 (input [List.replicate 64 0] [] 0 [])) = false ∧ Instr.wf (.groupStart 0 0 0 (input (List.replicate 129 []) [] 0 [])) = false
    ∧ Instr.wf (.groupStart 0 0 0 (input [] [List.replicate 129 0] 0 [])) = false ∧ Instr.wf (.groupStart 0 0 0 (input [] [] 1001 [])) = false
    ∧ Instr.wf (.groupStart 0 0 0 (input [] [] 0 [1, 0])) = false
    ∧ Instr.wf (.groupDecode 0 18 [] []) = false ∧ Instr.wf (.groupDecode 0 0 [⟨64, 0, 1⟩] []) = false ∧ Instr.wf (.groupDecode 0 0 [⟨1, 128, 1⟩] []) = false
    ∧ Instr.wf (.keySelect 0 256) = false ∧ Instr.wf (.negReseat 0 16128) = false ∧ Instr.wf (.pipelineRow 0 126 0) = false
    ∧ Instr.wf (.listenEnd 0 (List.replicate 5 [])) = false ∧ Instr.wf (.synEdge 0 true true) = false
    ∧ Instr.wf (.checkSlotDone [[1]]) = false ∧ Instr.wf (.checkSlotDone (List.replicate 4 [1])) = false
    ∧ (∀ i : Fin 3, let n := fun (j : Fin 3) => if i = j then 7 else 8
        Instr.wf (.calStep (List.replicate (n 0) 0) (List.replicate (n 1) 0) (List.replicate (n 2) (false, false))) = false)
    ∧ Instr.wf (.elchkStep (List.replicate 31 (0, false)) (List.replicate 32 0)) = false
    ∧ Instr.wf (.elchkStep (List.replicate 32 (0, false)) (List.replicate 31 0)) = false
    ∧ Instr.wf (.userInstruction 0 ⟨0, 2, false, 0⟩ (List.replicate 4 (.imm 0))) = false
    ∧ Instr.wf (.scrubAccess (.mem 2) .none) = false ∧ Instr.wf (.scrubAccess (.mem 0x40000) .none) = false
    ∧ Instr.wf (.scrubAccess (.mem 0x300000) .none) = false ∧ Instr.wf (.queuePacketWrite false 0) = false := by decide +kernel
theorem test_wf_refuses_a_long_listening : Instr.wf (.listenEnd 0 [List.replicate 3201 0]) = false := by decide +kernel

/-- LEN and the payload disagree, or LEN is above 252, on a line that showed no violation. -/
theorem test_wf_refuses_parcels :
    let bad : RxParcel := ⟨⟨tyReport, 1, 0, 0, 0, 0, 2, 0, [1]⟩, 0, false⟩
    let long : RxParcel := ⟨⟨tyReport, 1, 0, 0, 0, 0, 253, 0, List.replicate 253 0⟩, 0, false⟩
    RxParcel.wf bad = false ∧ RxParcel.wf long = false ∧ Instr.wf (.reportRx 0 bad) = false ∧ Instr.wf (.bulkRx 0 bad) = false
    ∧ Instr.wf (.alertRx 0 bad) = false ∧ Instr.wf (.fenceRx 0 bad) = false ∧ Instr.wf (.fenceackRx 0 bad) = false ∧ Instr.wf (.beatRx 0 bad 0) = false
    ∧ Instr.wf (.grantRx 0 bad) = false ∧ Instr.wf (.helloRx 0 bad) = false ∧ Instr.wf (.enumRx 0 bad) = false ∧ Instr.wf (.winreqRx 0 bad) = false
    ∧ Instr.wf (.winrspRx 0 bad) = false ∧ Instr.wf (.bootimgRx 0 bad) = false ∧ Instr.wf (.heartbeatRx 0 bad) = false
    ∧ Instr.wf (.takeoverRx 0 bad) = false := by decide +kernel
theorem test_wf_accepts :
    Instr.wf (.beatEdge 1) = true ∧ Instr.wf (.groupStart 0 17 0 (input [List.replicate 63 0] [] 1000 [1])) = true
    ∧ Instr.wf (.reportRx 0 ⟨⟨tyReport, 1, 0, 0, 0, 0, 1, 0, [1]⟩, 0, false⟩) = true ∧ Instr.wf (.scrubAccess (.mem 0x2FFFFC) .none) = true := by
  decide +kernel

/-! ### The queue and time -/

theorem test_step_takes_the_front :
    step { worker with pending := [.scratchWrite 7, .gesture] } = .next { worker with
      pwr := { worker.pwr with scratch := 7, irqstat := 0x2000 }, pending := [.gesture] } := rfl
theorem test_idle_step_is_one_sense_clock : (match step worker with
    | .next t => t.beat.now
    | _ => 0) = 1 := by decide +kernel
/-- The table gives no row bits, so no word spells a command. -/
theorem test_no_word_spells_a_command : decodeTableWord 32 0x12345678 = none := rfl

/-! ### Known values: CRC-32 and CRC check values of "123456789" (IEEE 802.3) -/

theorem test_crc32_check_value : crc32 [0x31, 0x32, 0x33, 0x34, 0x35, 0x36, 0x37, 0x38, 0x39] = 0xCBF43926 := by decide +kernel

/-! ### Carud: results worked out by hand from R223 -/

/-- A2 and A3 hold x and y. -/
def two (x y : W32) : State := carud (fun c => { c with a := [0, 0, x, y] ++ List.replicate 12 0 })
def hWu : IHdr := { hW with u := true }
/-- A1 after an instruction. -/
def into1 (c : Instr) (x y : W32) : W32 := areg (after c (two x y)) 1

theorem test_add_wraps : into1 (.add hW (.areg 1) (.areg 2) (.areg 3)) 0xFFFFFFFF 1 = 0 := by decide +kernel
theorem test_sub_byte_truncates : into1 (.sub hB (.areg 1) (.areg 2) (.areg 3)) 0 1 = 0xFF := by decide +kernel
theorem test_adds_saturates : into1 (.adds hW (.areg 1) (.areg 2) (.areg 3)) 0x7FFFFFFF 1 = 0x7FFFFFFF := by decide +kernel
theorem test_subs_unsigned_saturates : into1 (.subs hWu (.areg 1) (.areg 2) (.areg 3)) 1 2 = 0 := by decide +kernel
theorem test_min_signed : into1 (.min hW (.areg 1) (.areg 2) (.areg 3)) 0xFFFFFFFF 1 = 0xFFFFFFFF := by decide +kernel
theorem test_max_unsigned : into1 (.max hWu (.areg 1) (.areg 2) (.areg 3)) 0xFFFFFFFF 1 = 0xFFFFFFFF := by decide +kernel
theorem test_neg : into1 (.neg hW (.areg 1) (.areg 2)) 1 0 = 0xFFFFFFFF := by decide +kernel
theorem test_abs_saturates : into1 (.abs hW (.areg 1) (.areg 2)) 0x80000000 0 = 0x7FFFFFFF := by decide +kernel
theorem test_and_or_xor_not :
    into1 (.and hW (.areg 1) (.areg 2) (.areg 3)) 0xFF00 0x0FF0 = 0x0F00 ∧ into1 (.or hW (.areg 1) (.areg 2) (.areg 3)) 0xFF00 0x0FF0 = 0xFFF0
    ∧ into1 (.xor hW (.areg 1) (.areg 2) (.areg 3)) 0xFF00 0x0FF0 = 0xF0F0 ∧ into1 (.not hW (.areg 1) (.areg 2)) 0xFF00 0 = 0xFFFF00FF := by decide +kernel
theorem test_shl_by_width_is_zero : into1 (.shl hW (.areg 1) (.areg 2) (.areg 3)) 1 32 = 0 := by decide +kernel
theorem test_shr_fills_with_sign : into1 (.shr hW (.areg 1) (.areg 2) (.areg 3)) 0x80000000 40 = 0xFFFFFFFF := by decide +kernel
theorem test_ext_signed_field : into1 (.ext (hX (4 + 32 * 3)) (.areg 1) (.areg 2)) 0xF5 0 = 0xFFFFFFFF := by decide +kernel
theorem test_mov_byte : into1 (.mov hB (.areg 1) (.areg 2)) 0x180 0 = 0x80 := by decide +kernel
theorem test_parity_brev : into1 (.parity hW (.areg 1) (.areg 2)) 7 0 = 1 ∧ into1 (.brev (hX 7) (.areg 1) (.areg 2)) 1 0 = 0x80 := by decide +kernel
theorem test_resid : areg (after (.resid hH (.areg 3) (.areg 2)) (two 1 65520)) 3 = 0 := by decide +kernel
theorem test_lea : into1 (.lea hW (.areg 1) (.ind 2 4)) 0x100000 0 = 0x100004 := by decide +kernel
theorem test_cmp_sets_predicate : (after (.cmp (hX 0x0021) (.areg 2) (.areg 3)) (two 0xFFFFFFFF 1)).cpu.pr = 3 := by decide +kernel
theorem test_tst_clears_predicate :
    (after (.tst (hX 1) (.areg 2) (.areg 3)) { two 1 2 with cpu := { (two 1 2).cpu with pr := 3 } }).cpu.pr = 1 := by decide +kernel
theorem test_mac_wraps_at_48_bits :
    let c := mqPass { flight := [⟨1, 1, true, 2 ^ 47⟩] } 1
    c.mq.getD 1 0 = 0xFFFF800000000000 ∧ c.mqstat = 2 := by decide +kernel
theorem test_br_and_call : (after (.br (hX 4)) worker).cpu.pc = 4 ∧ (after (.call (hX 4)) worker).cpu.rs = [1] := by decide +kernel
theorem test_ret_pops : (after (.ret hW) (carud (fun c => { c with rs := [9] }))).cpu.pc = 9 := by decide +kernel
theorem test_trap_enters_vector_9 :
    let t := after (.trap (hX 5)) worker
    t.cpu.pc = 36 ∧ t.cpu.tcause = 0x59 := by decide +kernel
theorem test_loop_opens : (after (.loop (hX 1) (.imm 3)) worker).cpu.lpc.getD 0 0 = 3 := by decide +kernel
theorem test_store_is_little_endian :
    let t := after (.mov hW (.dir 0x100000) (.immx 0x11223344)) worker
    rd8 t 0x100000 = 0x44 ∧ rd8 t 0x100003 = 0x11 := by decide +kernel
theorem test_misaligned_store_traps : (after (.mov hW (.dir 0x100002) (.imm 1)) worker).cpu.tcause = 0x12 := by decide +kernel
theorem test_user_instruction_adds : areg (after (.userInstruction 0 hW [.areg 1, .imm 2, .imm 3]) adder) 1 = 5 := by decide +kernel
theorem test_nop_passes : (after (.nop 0x00800000) worker).cpu.pc = 1 := by decide +kernel

/-! ### Registers and the window -/

theorem test_irqstat_clears_by_ones :
    (after (.registerWrite .host (.host 0x05) 0x00F0) { worker with pwr := { worker.pwr with irqstat := 0x0FFF } }).pwr.irqstat = 0x0F0F := by decide +kernel
theorem test_config_write_is_staged :
    let t := after (.registerWrite .host (.config 0x0508) 0x0019) worker
    stg t 0x508 = 25 ∧ reg t 0x508 = 50 := by decide +kernel
theorem test_window_write_pair :
    let t := after (.windatWrite 0x1122) (after (.windatWrite 0x3344) (window 0x6000 0 id))
    rd32 t 0x100000 = 0x11223344 := by decide +kernel
theorem test_mode_request_needs_key : (after (.modeRequest 0x0001) worker).pwr.mbusy = false ∧ (after (.modeRequest 0xA501) worker).pwr.mbusy = true := by
  decide +kernel
/-- R8, R271: PERF.REQ holds 3, and acts as 2. -/
theorem test_perf_3_acts_as_2 : let t := after (.perfRequest 3) worker; t.pwr.perfReq = 3 ∧ t.pwr.perfTgt = 2 := by decide +kernel
theorem test_queue_is_first_in_first_out :
    (after (.queueDataRead ⟨false, .none⟩) (queued { words := [⟨7, false, false⟩, ⟨8, true, false⟩], pkt := 1 })).win.hd = 7 := by decide +kernel
theorem test_counter_read_clears :
    (after (.counterClearingRead (.host 0x2E) true) { worker with flt := { worker.flt with errcnt0 := 9 } }).flt.errcnt0 = 1 := by decide +kernel
theorem test_scratch_raises_its_flag : (after (.scratchWrite 5) worker).pwr.irqstat = 0x2000 := by decide +kernel

/-! ### The frame, zones, permits, lamps, auxiliary channels -/

theorem test_beat_advances_the_number : (after (.beat 100000) (inBoot .load worker)).beat.no = 1 := by decide +kernel
/-- 50 mV against 1.2 V at gain 1: 4096 / 24 is 170.67, rounded to 171. -/
theorem test_conversion_code : ((after (.seqConversion sample.toAuxInputs sample.vref) (sequencing .track 200 0)).aux.flight.map (fun c => c.raw)) = [171] := by decide +kernel
theorem test_zone_trips_at_its_count :
    (getZone (after (.zoneTrip 0) (zoned 0x2940 0x0070 { trip := false, bvalid := true, tcnt := 1 } 0)) 0).trip = true := by decide +kernel
theorem test_permit_on_then_forced_off :
    let s := after (.permitOn 0) (permitted {})
    (getPermit s 0).cmd = true ∧ (getPermit (after (.permitForce 1) s) 0).cmd = false := by decide +kernel
theorem test_lamp_turns_on : (getLamp (after (.lampPeriodStart 0 ⟨false, true⟩ ⟨true, .mid⟩) (lit 0 {})) 0).on = true := by decide +kernel
theorem test_amp_fence_logs : (after (.ampFence 0) (amp0 { due := true } worker)).flt.logcount = 1 := by decide +kernel
/-- R43 to R56: 12 edges of 30 V on 1 fF bring 0.36 pC, 1474.56 counts of a 1 pC bushel; each of the four steps with sign -1 reads -1475. -/
theorem test_decoded_coupling : ((getPass (after (.groupDecode 0 0 [] []) grouped) 0).nodes.map (fun n => n.n)) = [1475] := by decide +kernel

/-! ### Links and the tree -/

theorem test_sequenced_parcel_is_taken :
    (getPort (after (.bulkRx 2 (rx (parcel tyBulk 9 0x1F0 [1]))) (linked 2 up worker)) 0).bulk.length = 1 := by decide +kernel
theorem test_crc_failure_is_counted :
    (after (.bulkRx 2 ⟨parcel tyBulk 9 0x1F0 [1], 0, false⟩) (linked 2 up worker)).flt.errcnt1 = 1 := by decide +kernel
theorem test_enum_gives_the_address :
    (after (.enumRx 0 (rx (routed tyEnum 1 9))) (linked 0 up (inBoot .load (homeless worker)))).lnk.addr = 9 := by decide +kernel
theorem test_takeover : (after .takeover { manager with lnk := { manager.lnk with ring := false, stby := true, miss := 3 } }).lnk.ring = true := by decide +kernel
theorem test_reset_keeps_aonscr : (after (.resetNAssert 1000) { worker with pwr := { worker.pwr with aonscr := [(0, 7)] } }).pwr.aonscr = [(0, 7)] := by
  decide +kernel
theorem test_power_on_clears_aonscr : (after .powerOnReset { worker with pwr := { worker.pwr with aonscr := [(0, 7)] } }).pwr.aonscr = [] := by decide +kernel

end
end Sys2Proof.Tests
end

namespace Sys2Proof.Machine
open Sys2Proof

/-! ### The step and the reset state (O1, O2) -/

theorem reset_log_empty (slot : Nat) : State.reset.flt.log.getD slot none = none := by
  show (List.replicate 64 none).getD slot none = none
  rw [List.getD_eq_getElem?_getD, List.getElem?_replicate]
  split
  · rfl
  · rfl

/-- Settles O1: the two clauses are the two branches of `step`. -/
theorem stepRunsFrontCommand : Obligations.StepRunsFrontCommand := by
  refine ⟨fun s c rest => rfl, fun s hs => ?_⟩
  simp only [step, hs]

/-- Settles O2: each value is what evaluating the reset state gives. -/
theorem resetLeavesTheTablesValues : Obligations.ResetLeavesTheTablesValues := by
  refine ⟨rfl, rfl, rfl, rfl, rfl, rfl, rfl, fun _ => rfl, rfl, rfl, rfl, ?trips, ?permits, ?addresses, rfl, fun _ => rfl,
    fun slot => reset_log_empty slot.toNat, rfl, rfl⟩
  case trips => decide
  case permits => decide
  case addresses => decide

/-! ### A held half word is committed without touching the SENSE domain -/

@[simp] theorem ite_sense (c : Prop) [Decidable c] (a b : State) :
    (if c then a else b).pwr.sense = if c then a.pwr.sense else b.pwr.sense :=
  apply_ite (fun s : State => s.pwr.sense) c a b

@[simp] theorem foldl_sense {α : Type} (f : State → α → State) (hf : ∀ s a, (f s a).pwr.sense = s.pwr.sense) (l : List α) (s : State) :
    (l.foldl f s).pwr.sense = s.pwr.sense := by
  induction l generalizing s with
  | nil => rfl
  | cons a l ih => rw [List.foldl_cons, ih, hf]

@[simp] theorem raise_sense (s : State) (b : Nat) : (raise s b).pwr.sense = s.pwr.sense := rfl

@[simp] theorem fenceNote_sense (s : State) (kind unit : Nat) (d : W16) : (fenceNote s kind unit d).pwr.sense = s.pwr.sense := rfl

@[simp] theorem unheld_sense (s t : State) : (unheld s t).pwr.sense = if s.jtag.ir = .extest then s.pwr.sense else t.pwr.sense :=
  ite_sense ..

@[simp] theorem fencePipe_sense (s : State) (p : Nat) (why : W16) : (fencePipe s p why).pwr.sense = s.pwr.sense := by simp [fencePipe]

@[simp] theorem headerFen_sense (s : State) (p : Nat) : (headerFen s p).pwr.sense = s.pwr.sense := by simp [headerFen]

@[simp] theorem pipeFence_sense (s : State) (p : Nat) (why : W16) : (pipeFence s p why).pwr.sense = s.pwr.sense := by simp [pipeFence]

@[simp] theorem fenceBank_sense (s : State) (k : Nat) : (fenceBank s k).pwr.sense = s.pwr.sense := by simp [fenceBank]

@[simp] theorem permitOff_sense (s : State) (k : Nat) : (permitOff s k).pwr.sense = s.pwr.sense := by simp [permitOff]

@[simp] theorem sendAlert_sense (s : State) : (sendAlert s).pwr.sense = s.pwr.sense := by simp [sendAlert, putAlert]

@[simp] theorem permitsCount_sense (s : State) : (permitsCount s).pwr.sense = s.pwr.sense := by simp [permitsCount, entriesFrame, permitCount, permitTry]

@[simp] theorem tripZone_sense (s : State) (z : Nat) : (tripZone s z).pwr.sense = s.pwr.sense := by simp [tripZone]

@[simp] theorem releaseZone_sense (s : State) (z : Nat) : (releaseZone s z).pwr.sense = s.pwr.sense := by simp [releaseZone]

@[simp] theorem evalR36_sense (s : State) (z : Nat) (held : Bool) : (evalR36 s z held).pwr.sense = s.pwr.sense := by simp [evalR36, evalSeating]

@[simp] theorem evalZone_sense (s : State) (z : Nat) (held : Bool) : (evalZone s z held).pwr.sense = s.pwr.sense := by simp [evalZone, evalValid, trackZone, countZone]

@[simp] theorem evalSeen_sense (s : State) (z : Nat) : (evalSeen s z).pwr.sense = s.pwr.sense := by simp [evalSeen, zoneSeen]

@[simp] theorem fallEval_sense (s : State) : (fallEval s).pwr.sense = s.pwr.sense := by simp [fallEval, afterGroup, evalPass]

@[simp] theorem bankFence_sense (s : State) (k : Nat) : (bankFence s k).pwr.sense = s.pwr.sense := by simp [bankFence]

theorem loadWord_sense (s : State) (a : Nat) : (loadWord s a).2.2.pwr.sense = s.pwr.sense := by
  unfold loadWord
  split
  · simp
  · rfl

theorem rmwHalf_sense (s : State) (sp lin : Nat) (v : W16) : (rmwHalf s sp lin v).pwr.sense = s.pwr.sense := by
  simp [rmwHalf, winErr, storeWord, loadWord_sense]

/-- A held half word is committed to memory; the SENSE domain's state is not touched. -/
theorem settle_sense (s : State) : (settle s).pwr.sense = s.pwr.sense := by
  unfold settle
  split
  · rfl
  · exact rmwHalf_sense ..

/-! ### Accesses of the host port -/

theorem slice_zero {n : Nat} (v : BitVec n) : slice v 0 = v.setWidth 16 := by
  apply BitVec.eq_of_toNat_eq
  simp [slice, fld, w16]

theorem slice_one (v : BitVec 32) : slice v 1 = (v >>> 16).setWidth 16 := by
  apply BitVec.eq_of_toNat_eq
  simp [slice, fld, w16]

/-- A bit of a word that its mask does not take is a bit of the word's masked form. -/
theorem hintLow_iff (s : State) :
    hintLow s = true ↔ s.pwr.hostOk = true ∧ ∃ b, b < 16 ∧ bit s.pwr.irqstat b = true ∧ bit s.pwr.irqmask b = false := by
  have masked : ∀ v w : W16, v &&& ~~~w = 0 ↔ ∀ b, b < 16 → bit v b = true → bit w b = true := by
    intro v w
    rw [BitVec.eq_of_getLsbD_eq_iff]
    constructor
    · intro h b hb hv
      simpa [bit, hb, show v.getLsbD b = true from hv] using h b hb
    · intro h b hb
      simpa [bit, hb] using h b hb
  unfold hintLow
  rw [Bool.and_eq_true, bne_iff_ne, ne_eq, masked]
  simp

theorem spaceGate_open (s : State) (h : spaceOpen s = true) : spaceGate s = none := by
  obtain ⟨hrun, hmode⟩ : s.pwr.boot = .run ∧ (s.pwr.mode = .scan ∨ s.pwr.mode = .watch) := by simpa [spaceOpen, inRun] using h
  apply spaceGate_awake
  · simp [hrun]
  · rcases hmode with e | e <;> simp [e]
  · rcases hmode with e | e <;> simp [e]

theorem winOpen_of_spaceOpen (s : State) (h : spaceOpen s = true) : winOpen s = true := by
  have hrun : inRun s = true := by simp only [spaceOpen, Bool.and_eq_true] at h; exact h.1
  simp [winOpen, hrun]

section
variable (s : State)

theorem hostReads_run (f : State → State × W16) (h : hostAnswers s = true) (hrun : inRun s = true) :
    hostReads s f = setHd (f (settle s)).1 (f (settle s)).2 := by simp [hostReads, h, hrun]
theorem hostReads_boot (f : State → State × W16) (h : hostAnswers s = true) (hrun : inRun s = false) :
    hostReads s f = setHd (settle s) 0 := by simp [hostReads, h, hrun]

theorem readSpace_open (f : State → State) (h : hostAnswers s = true) (ho : spaceOpen s = true) : readSpace s f = f (settle s) := by
  simp [readSpace, h, winOpen_of_spaceOpen s ho, hostSpace, spaceGate_open s ho]
theorem writeSpace_open (f : State → State) (h : hostAnswers s = true) (ho : spaceOpen s = true) : writeSpace s f = f (settle s) := by
  simp [writeSpace, winWrites, h, winOpen_of_spaceOpen s ho, hostSpace, spaceGate_open s ho]

theorem readSpace_refused (f : State → State) (h : hostAnswers s = true) (hw : winOpen s = true) {e : BitVec 4} (hg : spaceGate s = some e) :
    readSpace s f = setHd (winErr (settle s) e) 0 := by simp [readSpace, h, hw, hostSpace, hg]
theorem writeSpace_refused (f : State → State) (h : hostAnswers s = true) (hw : winOpen s = true) {e : BitVec 4} (hg : spaceGate s = some e) :
    writeSpace s f = winErr (settle s) e := by simp [writeSpace, winWrites, h, hw, hostSpace, hg]

theorem readSpace_closed (f : State → State) (h : hostAnswers s = true) (hw : winOpen s = false) : readSpace s f = setHd s 0 := by
  simp [readSpace, h, hw]
theorem writeSpace_closed (f : State → State) (h : hostAnswers s = true) (hw : winOpen s = false) : writeSpace s f = bootWritten s := by
  simp [writeSpace, winWrites, h, hw]

theorem readSpace_dead (f : State → State) (h : hostAnswers s = false) : readSpace s f = s := by simp [readSpace, h]
theorem writeSpace_dead (f : State → State) (h : hostAnswers s = false) : writeSpace s f = s := by simp [writeSpace, winWrites, h]
end

/-- A host register read in RUN, other than WINDAT. -/
theorem exec_read_host (s : State) (off : BitVec 6) (event : Bool) (h : hostAnswers s = true) (hrun : inRun s = true) (hoff : off ≠ 0x0C) :
    exec (.counterClearingRead (.host off) event) s
      = .next (setHd (hostGet (settle s) off.toNat event).1 (hostGet (settle s) off.toNat event).2) := by
  have hnot : ¬(off = 0x0C ∧ winOpen s = true) := fun e => hoff e.1
  simp only [exec, execCounterClearingRead, h, if_neg hnot, hostVisible, hrun, Bool.not_true, Bool.true_or, if_true, Bool.false_eq_true, if_false]

theorem exec_beatloRead_run (s : State) (h : hostAnswers s = true) (hrun : inRun s = true) (hs : s.pwr.sense ≠ .off) :
    exec .beatloRead s = .next { settle s with
      beat := { (settle s).beat with latBeat := (settle s).beat.no, latPhase := phaseNow (settle s) }
      win := { (settle s).win with hd := (settle s).beat.no.setWidth 16 } } := by
  have ha : alive (settle s).pwr.sense = true := by simpa [alive, settle_sense] using hs
  simp [exec, execBeatloRead, hostReads_run s _ h hrun, beatloGet, ha, slice_zero, setHd]

theorem exec_calcntloRead_run (s : State) (h : hostAnswers s = true) (hrun : inRun s = true) (hs : s.pwr.sense ≠ .off) :
    exec .calcntloRead s = .next { settle s with
      ana := { (settle s).ana with latCnt := ((settle s).ana.calCnt >>> 16).setWidth 16, latBeat := (settle s).ana.calBeat }
      win := { (settle s).win with hd := (settle s).ana.calCnt.setWidth 16 } } := by
  have ha : alive (settle s).pwr.sense = true := by simpa [alive, settle_sense] using hs
  simp [exec, execCalcntloRead, hostReads_run s _ h hrun, calcntGet, ha, slice_zero, slice_one, setHd]

/-- R8, R10: clearing reads in RUN, and those of registers whose reads latch. -/
theorem exec_clearingRead_host (s : State) (event : Bool) (h : hostAnswers s = true) (hrun : inRun s = true) :
    let u := settle s
    exec (.counterClearingRead (.host 0x2E) event) s = .next { u with
        win := { u.win with hd := u.flt.errcnt0 }, flt := { u.flt with errcnt0 := if event then 1 else 0 } }
    ∧ exec (.counterClearingRead (.host 0x2F) event) s = .next { u with
        win := { u.win with hd := u.flt.errcnt1 }, flt := { u.flt with errcnt1 := if event then 1 else 0 } }
    ∧ exec (.counterClearingRead (.host 0x31) event) s = .next { u with
        win := { u.win with hd := u.pwr.wakecause }, pwr := { u.pwr with wakecause := 0 } }
    ∧ exec (.counterClearingRead (.host 0x1D) event) s = exec .beatloRead s
    ∧ exec (.counterClearingRead (.host 0x20) event) s = exec .calcntloRead s := by
  refine ⟨?_, ?_, ?_, ?_, ?_⟩
  · rw [exec_read_host s _ event h hrun (by decide)]; cases event <;> rfl
  · rw [exec_read_host s _ event h hrun (by decide)]; cases event <;> rfl
  · rw [exec_read_host s _ event h hrun (by decide)]; rfl
  · rw [exec_read_host s _ event h hrun (by decide)]
    simp only [exec, execBeatloRead, hostReads_run s _ h hrun]; rfl
  · rw [exec_read_host s _ event h hrun (by decide)]
    simp only [exec, execCalcntloRead, hostReads_run s _ h hrun]; rfl

/-- R101: the read of SYNPERLO latches SYNPERHI. -/
theorem exec_synperloRead (s : State) (k : Fin 4) (h : hostAnswers s = true) (ho : spaceOpen s = true) (hl : (settle s).car.syn.length = 4) :
    ∃ t, exec (.synperloRead k) s = .next t
      ∧ t = { settle s with
        car := { (settle s).car with syn := t.car.syn }, win := { (settle s).win with hd := w16 (getSyn (settle s) k).period } }
      ∧ (getSyn t k).hiLatch.toNat = (getSyn (settle s) k).period / 65536 % 256 + 32768 * b2n (getSyn (settle s) k).valid := by
  refine ⟨synLatch (settle s) k, ?_, rfl, ?_⟩
  · simp only [exec, execSynperloRead, readSpace_open s _ h ho]
  · have hk : (k : Nat) < (settle s).car.syn.length := by omega
    have hlatch : (getSyn (synLatch (settle s) k) k).hiLatch
        = w16 ((getSyn (settle s) k).period / 65536 % 256 + 32768 * b2n (getSyn (settle s) k).valid) :=
      congrArg Syn.hiLatch (getSyn_setSyn (settle s) k _ hk)
    have hb : b2n (getSyn (settle s) k).valid ≤ 1 := by unfold b2n; split <;> decide
    rw [hlatch, w16, BitVec.toNat_ofNat]
    omega

/-- A clearing read of a word of CONFIG, AUX or LOG space that the window reaches. -/
theorem exec_clearingRead_space (s : State) (event : Bool) (h : hostAnswers s = true) (ho : spaceOpen s = true) :
    (∀ adr, exec (.counterClearingRead (.config adr) event) s
      = .next (setHd (configRead (settle s) adr.toNat event) (configWord (settle s) adr.toNat)))
    ∧ (∀ adr, exec (.counterClearingRead (.aux adr) event) s
      = .next (setHd (auxRead (settle s) adr.toNat event) (auxWord (settle s) adr.toNat)))
    ∧ (∀ adr, exec (.counterClearingRead (.log adr) event) s
      = .next (setHd (logSpaceRead (settle s) adr.toNat event) (logSpaceWord (settle s) adr.toNat))) := by
  simp only [exec, execCounterClearingRead, clearSpace, readSpace_open s _ h ho, implies_true, and_self]

theorem runPresent_idle (s : State) (h : s.car.run = none) : runPresent s = s := by simp [runPresent, h]
theorem runPresent_run (s : State) {run : Run} (h : s.car.run = some run) : runPresent s = putRun s (runAt s (carClk s) run) := by
  simp [runPresent, h]
theorem runPresent_frame (s : State) :
    runPresent s = { s with car := { s.car with run := (runPresent s).car.run, noisycnt := (runPresent s).car.noisycnt } } := by
  cases h : s.car.run with
  | none => simp [runPresent_idle s h]
  | some run => simp [runPresent_run s h, putRun]

theorem configRead_noisycnt (s : State) (event : Bool) :
    configRead s 0x504 event = { runPresent s with car := { (runPresent s).car with noisycnt := rcCount event } } := rfl
theorem configWord_noisycnt (s : State) : configWord s 0x504 = (runPresent s).car.noisycnt := rfl
theorem rcCount_eq (event : Bool) : rcCount event = if event then 1 else 0 := by cases event <;> rfl

/-- R95: the read of NOISYCNT counts the NOISY steps of the run in progress first. -/
theorem exec_noisycntRead (s : State) (event : Bool) (h : hostAnswers s = true) (ho : spaceOpen s = true) :
    ∃ t, exec (.counterClearingRead (.config 0x504) event) s = .next t
      ∧ t = { settle s with win := { (settle s).win with hd := t.win.hd }, car := { (settle s).car with run := t.car.run, noisycnt := if event then 1 else 0 } }
      ∧ ((settle s).car.run = none → t.win.hd = (settle s).car.noisycnt ∧ t.car.run = none)
      ∧ (∀ run, (settle s).car.run = some run → t.car.run = some (runAt (settle s) (carClk (settle s)) run)
          ∧ t.win.hd = satAdd (settle s).car.noisycnt ((runAt (settle s) (carClk (settle s)) run).noisy - run.noisy)) := by
  refine ⟨_, (exec_clearingRead_space s event h ho).1 0x504, ?_, ?_, ?_⟩ <;>
    simp only [BitVec.reduceToNat, configRead_noisycnt, configWord_noisycnt]
  · rw [← rcCount_eq, runPresent_frame]; rfl
  · intro hr
    rw [runPresent_idle _ hr]
    exact ⟨rfl, hr⟩
  · intro run hr
    rw [runPresent_run _ hr]
    exact ⟨rfl, by simp [setHd, putRun, hr]⟩

/-- Accesses of CONFIG, AUX and LOG words are accesses of such a space, whatever they do there. -/
theorem exec_spaceAccess (s : State) (r : RegTarget) (event : Bool) {adr : W16} (v : W16) (hr : r = .config adr ∨ r = .aux adr ∨ r = .log adr) :
    (∃ f, exec (.counterClearingRead r event) s = .next (readSpace s f)) ∧ (∃ f, exec (.registerWrite .host r v) s = .next (writeSpace s f)) := by
  rcases hr with rfl | rfl | rfl <;> exact ⟨⟨_, rfl⟩, ⟨_, rfl⟩⟩

/-- R268, R276: accesses of CONFIG, AUX and LOG words that are not made. -/
theorem exec_spaceAccess_shut (s : State) (r : RegTarget) (event : Bool) (adr v : W16) (hr : r = .config adr ∨ r = .aux adr ∨ r = .log adr) :
    let u := settle s
    let read := exec (.counterClearingRead r event) s
    let write := exec (.registerWrite .host r v) s
    let refused (c : BitVec 4) : Prop :=
      read = .next { u with win := { u.win with err := c, errf := true, hd := 0 } } ∧ write = .next { u with win := { u.win with err := c, errf := true } }
    (hostAnswers s = false → read = .next s ∧ write = .next s)
    ∧ (hostAnswers s = true → inRun s = false → s.pwr.boot ≠ .hostload →
        read = .next { s with win := { s.win with hd := 0 } } ∧ write = .next { s with pwr := { s.pwr with bootWr := true } })
    ∧ (hostAnswers s = true → s.pwr.boot = .hostload → refused 1)
    ∧ (hostAnswers s = true → inRun s = true → s.pwr.mode = .hold ∨ s.pwr.mode = .dormant → refused 8) := by
  obtain ⟨⟨f, hread⟩, ⟨g, hwrite⟩⟩ := exec_spaceAccess s r event v hr
  have gated : ∀ e, hostAnswers s = true → winOpen s = true → spaceGate s = some e →
      exec (.counterClearingRead r event) s = .next (setHd (winErr (settle s) e) 0)
      ∧ exec (.registerWrite .host r v) s = .next (winErr (settle s) e) := by
    intro e h hw hg
    rw [hread, hwrite, readSpace_refused s f h hw hg, writeSpace_refused s g h hw hg]
    exact ⟨rfl, rfl⟩
  refine ⟨fun h => ?_, fun h hrun hboot => ?_, fun h hboot => ?_, fun h hrun hmode => ?_⟩
  · rw [hread, hwrite, readSpace_dead s f h, writeSpace_dead s g h]
    exact ⟨rfl, rfl⟩
  · have hw : winOpen s = false := by simp [winOpen, hrun, hboot]
    rw [hread, hwrite, readSpace_closed s f h hw, writeSpace_closed s g h hw]
    exact ⟨rfl, rfl⟩
  · exact gated errUnmapped h (by simp [winOpen, hboot]) (by simp [spaceGate, hboot])
  · have hboot : s.pwr.boot ≠ .hostload := by
      have : s.pwr.boot = .run := by simpa [inRun] using hrun
      simp [this]
    exact gated errAsleep h (by simp [winOpen, hrun]) (by simp [spaceGate, hboot, hmode])

/-- R8, R30: a word none of whose bits act at the access. -/
theorem plainWrite_stages (s : State) (key : Nat) (v : W16) (hf : takesForce key ≠ .access) (hb : accessBits key = 0) :
    plainWrite s key v = stage s key v := by simp [plainWrite, hf, hb]

theorem configWrite_plain (s : State) (side : Side) (w : Nat) (v : W16) (h : configAct s side w v = none) :
    configWrite s side w v = plainWrite s w v := by simp [configWrite, h]

theorem stored_staged (s : State) (h : s.stored = true) : swf regReset s.regs.staged = true := by
  simp only [State.stored, Bool.and_eq_true] at h
  exact h.1.2

/-- R8, R30: a plain word is staged under its RW bits, whoever writes it. -/
theorem exec_registerWrite_plain (s : State) (side : Side) (adr v : W16)
    (hhost : side = .host → hostAnswers s = true ∧ spaceOpen s = true) (hcarud : side = .carud → carudActs s = true) :
    let u := if side = .host then settle s else s
    configAct u side adr.toNat v = none → takesForce adr.toNat ≠ .access → accessBits adr.toNat = 0 → u.stored = true →
    ∃ t, exec (.registerWrite side (.config adr) v) s = .next t ∧ t = { u with regs := { u.regs with staged := t.regs.staged } }
      ∧ stg t adr.toNat = v &&& regMask adr.toNat ∧ (∀ k, k ≠ adr.toNat → stg t k = stg u k) := by
  intro u hact hf hb hst
  have hw : exec (.registerWrite side (.config adr) v) s = .next (configWrite u side adr.toNat v) := by
    cases side with
    | host => simp only [exec, execRegisterWrite, writeSpace_open s _ (hhost rfl).1 (hhost rfl).2, u, if_true]
    | carud => simp [exec, execRegisterWrite, carudAccess, hcarud rfl, carudRegWrite, u]
  have hplain : configWrite u side adr.toNat v = stage u adr.toNat v := by
    rw [configWrite_plain u side _ v hact, plainWrite_stages u _ v hf hb]
  obtain ⟨hsame, hother⟩ := plainWrite_staged u adr.toNat v (stored_staged u hst)
  rw [plainWrite_stages u _ v hf hb] at hsame hother
  exact ⟨stage u adr.toNat v, by rw [hw, hplain], rfl, hsame, hother⟩

/-- R267: writes of host registers in RUN. -/
theorem exec_registerWrite_host (s : State) (v : W16) (h : hostAnswers s = true) (hrun : inRun s = true) :
    let u := settle s
    exec (.registerWrite .host (.host 0x05) v) s = .next { u with pwr := { u.pwr with irqstat := u.pwr.irqstat &&& ~~~v } }
    ∧ exec (.registerWrite .host (.host 0x06) v) s = .next { u with pwr := { u.pwr with irqmask := v } }
    ∧ exec (.registerWrite .host (.host 0x33) v) s = .next { u with pwr := { u.pwr with scratch := v } }
    ∧ exec (.registerWrite .host (.host 0x02) v) s = .next { u with pwr := { u.pwr with bootWr := u.pwr.bootWr && !(bit v 10) } }
    ∧ exec (.registerWrite .host (.host 0x1C) v) s = .next u := by
  simp [exec, execRegisterWrite, hostRegWrite, hostWrites_run s _ h hrun, hostRegPut]

/-- R268: before RUN a host write sets BOOTWR; REVISION takes none. -/
theorem exec_registerWrite_boot (s : State) (v : W16) (h : hostAnswers s = true) (hrun : inRun s = false) :
    exec (.registerWrite .host (.host 0x05) v) s = .next { settle s with pwr := { (settle s).pwr with bootWr := true } }
    ∧ (s.pwr.boot = .hostload → exec (.registerWrite .host (.host 0x01) v) s = .next (settle s)) := by
  refine ⟨?_, fun hboot => ?_⟩
  · simp [exec, execRegisterWrite, hostRegWrite, hostWrites_boot s _ h hrun, bootWritten]
  · simp [exec, execRegisterWrite, hostRegWrite, winRegWrites, winWrites, h, winOpen, hboot]

/-- R208, R170: Carud's writes of mirrors. -/
theorem exec_registerWrite_mirror (s : State) (v : W16) (h : carudActs s = true) :
    exec (.registerWrite .carud (.host 0x05) v) s = .next s
    ∧ exec (.registerWrite .carud (.host 0x33) v) s = .next { s with pwr := { s.pwr with scratch := v, irqstat := putBit s.pwr.irqstat 13 true } }
    ∧ exec (.registerWrite .carud (.host 0x29) v) s = .next { s with aux := { s.aux with ovr := s.aux.ovr && !(bit v 6) } } := by
  simp [exec, execRegisterWrite, carudAccess, h, carudRegWrite, mirrorWrite, scratchCarud, ovrClear, raise]

/-- R378: a read of an entry's word 7 marks that entry, and no other. -/
theorem exec_logEntryRead (s : State) (slot : BitVec 6) (ho : spaceOpen s = true) (hl : s.flt.log.length = 64) :
    ∃ t, exec (.logEntryRead slot) s = .next t ∧ t = { s with flt := { s.flt with log := t.flt.log } }
      ∧ (∀ e, s.flt.log.getD slot.toNat none = some e → t.flt.log.getD slot.toNat none = some { e with read := true })
      ∧ (∀ j, j ≠ slot.toNat → t.flt.log.getD j none = s.flt.log.getD j none) := by
  refine ⟨logRead s slot.toNat, by simp [exec, execLogEntryRead, ho], rfl, fun e he => ?_, fun j hj => ?_⟩
  · have hs : slot.toNat < s.flt.log.length := by omega
    exact (upd_getD_same _ _ _ _ hs).trans (by rw [he]; rfl)
  · exact upd_getD_other _ _ _ hj

/-- Settles O50: one clause for each kind of access, each given by the lemma about that access. -/
theorem registerAccessesFollowTheirFields : Obligations.RegisterAccessesFollowTheirFields := by
  unfold Obligations.RegisterAccessesFollowTheirFields
  refine ⟨fun s h hrun hs => ?latches, fun s h hrun => ?bootRead, settle_none, ?synperlo, fun s event h ho => ?counters, exec_noisycntRead,
    ?shut, ?plain, exec_registerWrite_host, hintLow_iff, fun s v h => ?mirror, exec_registerWrite_boot, exec_logEntryRead⟩
  case latches =>
    exact ⟨exec_beatloRead_run s h hrun hs, exec_calcntloRead_run s h hrun hs, fun event => exec_clearingRead_host s event h hrun⟩
  case bootRead => simp only [exec, execBeatloRead, hostReads_boot s _ h hrun, setHd]
  case synperlo => exact exec_synperloRead
  case counters =>
    obtain ⟨hconfig, haux, hlog⟩ := exec_clearingRead_space s event h ho
    simp only [hconfig, haux, hlog, ← rcCount_eq]
    exact ⟨rfl, rfl, rfl, rfl⟩
  case shut => exact exec_spaceAccess_shut
  case plain => exact exec_registerWrite_plain
  case mirror => exact exec_registerWrite_mirror s v h

end Sys2Proof.Machine

namespace Sys2Proof.Machine
open Sys2Proof

/-! ### The waiting queue is left alone (O60)

Log 1: one rule for each function of the model that answers a state, in the order of the model: what it answers has the queue of the state it
was given. -/

@[simp] theorem ite_pending (c : Prop) [Decidable c] (a b : State) :
    (if c then a else b).pending = if c then a.pending else b.pending := apply_ite ..

@[simp] theorem foldl_pending {α : Type} (f : State → α → State) (hf : ∀ s a, (f s a).pending = s.pending) (l : List α) (s : State) :
    (l.foldl f s).pending = s.pending := by
  induction l generalizing s with
  | nil => rfl
  | cons a l ih => rw [List.foldl_cons, ih, hf]

theorem foldr_pending {α : Type} (f : α → State → State) (hf : ∀ a s, (f a s).pending = s.pending) (l : List α) (s : State) :
    (l.foldr f s).pending = s.pending := by
  induction l with
  | nil => rfl
  | cons a l ih => rw [List.foldr_cons, hf, ih]

theorem ite_keeps {c : Prop} [Decidable c] {a b s : State} (ha : a.pending = s.pending) (hb : b.pending = s.pending) :
    (if c then a else b).pending = s.pending := by
  split
  · exact ha
  · exact hb

/-! #### State operations -/

@[simp] theorem logAll_pending (s : State) (evs : List (Nat × Nat × W16)) : (logAll s evs).pending = s.pending := by
  obtain ⟨f, h, -⟩ := logAll_spec s evs
  rw [h]

@[simp] theorem wrBytes_pending (s : State) (a : Nat) (bs : List Byte) : (wrBytes s a bs).pending = s.pending := by
  apply foldl_pending
  exact fun t e => wr8_pending t e.2 e.1

@[simp] theorem fenceShd_pending (s : State) (k : Nat) : (fenceShd s k).pending = s.pending := by simp [fenceShd]

@[simp] theorem unheld_pending (s t : State) : (unheld s t).pending = if s.jtag.ir = .extest then s.pending else t.pending :=
  ite_pending ..

@[simp] theorem fenceZone_pending (s : State) (z : Nat) (word : Nat) : (fenceZone s z word).pending = s.pending := by simp [fenceZone]

@[simp] theorem permitOff_pending (s : State) (k : Nat) : (permitOff s k).pending = s.pending := by simp [permitOff]

@[simp] theorem permitsOff_pending (s : State) : (permitsOff s).pending = s.pending := by simp [permitsOff]

@[simp] theorem cfgWrites_pending (s : State) (f : State → State) (hf : ∀ s, (f s).pending = s.pending) : (cfgWrites s f).pending = s.pending := by
  simp [cfgWrites, hf]

@[simp] theorem seatZone_pending (s : State) (z : Nat) : (seatZone s z).pending = s.pending := by simp [seatZone]

@[simp] theorem reseatPass_pending (s : State) (p : Nat) : (reseatPass s p).pending = s.pending := by simp [reseatPass]

/-! #### Wakes -/

@[simp] theorem enterClocks_pending (s : State) : (enterClocks s).pending = s.pending := by simp [enterClocks]

@[simp] theorem beginWake_pending (s : State) : (beginWake s).pending = s.pending := by
  unfold beginWake
  split
  · rfl
  · split <;> simp

@[simp] theorem wakeNow_pending (s : State) (bits : BitVec 5) (tgt : Mode) : (wakeNow s bits tgt).pending = s.pending := by simp [wakeNow]

@[simp] theorem wakeEvent_pending (s : State) (b : Nat) (tgt : Mode) : (wakeEvent s b tgt).pending = s.pending := by
  unfold wakeEvent
  dsimp only
  split <;> simp

/-! #### Areas and fences of pipelines -/

@[simp] theorem headerFen_pending (s : State) (p : Nat) : (headerFen s p).pending = s.pending := by simp [headerFen]

@[simp] theorem pipeFence_pending (s : State) (p : Nat) (why : W16) : (pipeFence s p why).pending = s.pending := by simp [pipeFence, fencePipe]

/-! #### Parcels -/

@[simp] theorem putAlert_pending (s : State) (k : Nat) (a : Parcel) : (putAlert s k a).pending = s.pending := by simp [putAlert]

@[simp] theorem sendAlert_pending (s : State) : (sendAlert s).pending = s.pending := by simp [sendAlert]

/-! #### Zones -/

@[simp] theorem permitTry_pending (s : State) (k : Nat) : (permitTry s k).pending = s.pending := by simp [permitTry]

@[simp] theorem permitsCount_pending (s : State) : (permitsCount s).pending = s.pending := by simp [permitsCount, entriesFrame, permitCount]

@[simp] theorem tripZone_pending (s : State) (z : Nat) : (tripZone s z).pending = s.pending := by simp [tripZone]

@[simp] theorem releaseZone_pending (s : State) (z : Nat) : (releaseZone s z).pending = s.pending := by simp [releaseZone]

@[simp] theorem evalR36_pending (s : State) (z : Nat) (held : Bool) : (evalR36 s z held).pending = s.pending := by simp [evalR36, evalSeating]

@[simp] theorem zoneSeen_pending (s : State) (z : Nat) : (zoneSeen s z).pending = s.pending := by simp [zoneSeen]

@[simp] theorem evalZone_pending (s : State) (z : Nat) (held : Bool) : (evalZone s z held).pending = s.pending := by
  simp [evalZone, evalValid, trackZone, countZone]

@[simp] theorem evalSeen_pending (s : State) (z : Nat) : (evalSeen s z).pending = s.pending := by simp [evalSeen]

@[simp] theorem evalPass_pending (s : State) (p : Nat) (peak : Bool) : (evalPass s p peak).pending = s.pending := by simp [evalPass]

@[simp] theorem evalLate_pending (s : State) (p : Nat) (f : PipeFrame) : (evalLate s p f).pending = s.pending := by simp [evalLate, evalLateZone]

@[simp] theorem evalUrgentChannel_pending (s : State) (ch : Nat) : (evalUrgentChannel s ch).pending = s.pending := by
  simp [evalUrgentChannel, evalUrgent]

@[simp] theorem refreshFen_pending (s : State) : (refreshFen s).pending = s.pending := by simp [refreshFen]

@[simp] theorem zclrWrite_pending (s : State) (hi : Bool) (w : W16) : (zclrWrite s hi w).pending = s.pending := by simp [zclrWrite, zclrZone]

@[simp] theorem bitmapWrite_pending (s : State) (w : Nat) (v : W16) : (bitmapWrite s w v).pending = s.pending := by simp [bitmapWrite]

/-! #### Gestures -/

@[simp] theorem gestFrame_pending (s : State) (v : GestView) : (gestFrame s v).pending = s.pending := by simp [gestFrame]

@[simp] theorem gestStep_pending (s : State) (p noisy : Nat) : (gestStep s p noisy).pending = s.pending := by
  simp [gestStep, gestSeat, gestTrack, gestFlags]

@[simp] theorem gestStale_pending (s : State) (p : Nat) : (gestStale s p).pending = s.pending := by simp [gestStale]

@[simp] theorem gestEnter_pending (s : State) : (gestEnter s).pending = s.pending := by simp [gestEnter]

/-! #### Permits -/

@[simp] theorem permitsCheck_pending (s : State) : (permitsCheck s).pending = s.pending := by simp [permitsCheck, permitCheck]

@[simp] theorem permitForce_pending (s : State) (w : W16) : (permitForce s w).pending = s.pending := by simp [permitForce]

@[simp] theorem latchFault_pending (s : State) (k : Nat) (code : BitVec 3) (act : Bool) (judge : Option (BitVec 4)) :
    (latchFault s k code act judge).pending = s.pending := by
  simp [latchFault]

@[simp] theorem permClr_pending (s : State) (w : W16) : (permClr s w).pending = s.pending := by simp [permClr]

/-! #### The frame -/

@[simp] theorem afterGroup_pending (s : State) (p : Nat) : (afterGroup s p).pending = s.pending := by simp [afterGroup]

@[simp] theorem fallEval_pending (s : State) : (fallEval s).pending = s.pending := by simp [fallEval]

@[simp] theorem bankFence_pending (s : State) (k : Nat) : (bankFence s k).pending = s.pending := by simp [bankFence, fenceBank]

@[simp] theorem endGroup_pending (s : State) (p g : Nat) : (endGroup s p g).pending = s.pending := by simp [endGroup]

@[simp] theorem staleMark_pending (s : State) (p g : Nat) : (staleMark s p g).pending = s.pending := by simp [staleMark]

@[simp] theorem staleGroup_pending (s : State) (p g : Nat) : (staleGroup s p g).pending = s.pending := by simp [staleGroup]

@[simp] theorem checkFail_pending (s : State) (p n : Nat) : (checkFail s p n).pending = s.pending := by simp [checkFail]

@[simp] theorem failGroup_pending (s : State) (p g n : Nat) : (failGroup s p g n).pending = s.pending := by simp [failGroup]

@[simp] theorem hopCountFrame_pending (s : State) (p : Nat) : (hopCountFrame s p).pending = s.pending := by
  unfold hopCountFrame
  split <;> simp

@[simp] theorem hopTry_pending (s : State) (p : Nat) : (hopTry s p).pending = s.pending := by
  unfold hopTry
  split <;> simp

@[simp] theorem fenceBadZones_pending (s : State) : (fenceBadZones s).pending = s.pending := by simp [fenceBadZones]

@[simp] theorem programForce_pending (s : State) (old : Reader) (b0 : Nat) : (programForce s old b0).pending = s.pending := by
  simp [programForce, fenceInBadBanks]

/-! #### Clocks -/

@[simp] theorem corePass_pending (s : State) (n : Nat) : (corePass s n).pending = s.pending := by simp [corePass, sensePass, timerPass, cyclePass]

/-! #### Steps of a run -/

@[simp] theorem putRun_pending (s : State) (run : Run) : (putRun s run).pending = s.pending := by simp [putRun]

@[simp] theorem runPresent_pending (s : State) : (runPresent s).pending = s.pending := by
  unfold runPresent
  split <;> simp

@[simp] theorem runStop_pending (s : State) (t : Nat) : (runStop s t).pending = s.pending := by
  unfold runStop
  split <;> simp

@[simp] theorem staleRest_pending (s : State) (t : Nat) : (staleRest s t).pending = s.pending := by simp [staleRest, staleLeft]

/-! #### The analog front end -/

@[simp] theorem markSat_pending (s : State) (groups : Byte) : (markSat s groups).pending = s.pending := by
  unfold markSat
  dsimp only
  split <;> simp

@[simp] theorem markSelf_pending (s : State) : (markSelf s).pending = s.pending := by
  unfold markSelf
  dsimp only
  split <;> simp

@[simp] theorem shdNote_pending (s : State) (k ns : Nat) : (shdNote s k ns).pending = s.pending := by simp [shdNote]

@[simp] theorem clampAux_pending (s : State) (ch : Nat) : (clampAux s ch).pending = s.pending := by simp [clampAux]

@[simp] theorem calSetDue_pending (s : State) : (calSetDue s).pending = s.pending := by simp [calSetDue]

@[simp] theorem calcfgWrite_pending (s : State) (w : W16) : (calcfgWrite s w).pending = s.pending := by simp [calcfgWrite]

@[simp] theorem calCount_pending (s : State) : (calCount s).pending = s.pending := by simp [calCount]

@[simp] theorem calRun_pending (s : State) (rd : List CalReading) : (calRun s rd).pending = s.pending := by
  unfold calRun
  dsimp only
  split
  · simp
  · rw [calCount_pending, foldl_pending]
    exact fun t g => setAmp_pending ..

@[simp] theorem subsNote_pending (s : State) (l : List Sub) : (subsNote s l).pending = s.pending := by simp [subsNote]

@[simp] theorem gapUsed_pending (s : State) (t : Nat) : (gapUsed s t).pending = s.pending := by simp [gapUsed]

@[simp] theorem applyTrims_pending (s : State) : (applyTrims s).pending = s.pending := by simp [applyTrims]

@[simp] theorem ampFenceDue_pending (s : State) (a : Nat) : (ampFenceDue s a).pending = s.pending := by simp [ampFenceDue, fenceAmp]

@[simp] theorem elSetDue_pending (s : State) : (elSetDue s).pending = s.pending := by simp [elSetDue]

@[simp] theorem elTake_pending (s : State) (pin : Nat) (m : ElMeas) : (elTake s pin m).pending = s.pending := by simp [elTake]

@[simp] theorem elRun_pending (s : State) (b : Nat) (ms : List ElMeas) : (elRun s b ms).pending = s.pending := by
  refine foldl_pending _ (fun t j => ?_) _ s
  split <;> simp

@[simp] theorem elFenceDue_pending (s : State) (e : Nat) : (elFenceDue s e).pending = s.pending := by simp [elFenceDue, fenceElec]

/-! #### Auxiliary conversions -/

@[simp] theorem convDiscard_pending (s : State) (c : Conv) : (convDiscard s c).pending = s.pending := by simp [convDiscard]

@[simp] theorem convLost_pending (s : State) (c : Conv) : (convLost s c).pending = s.pending := by simp [convLost, urgentAgain]

@[simp] theorem slotDiscard_pending (s : State) : (slotDiscard s).pending = s.pending := by simp [slotDiscard]

@[simp] theorem adcDrop_pending (s : State) (k : Nat) : (adcDrop s k).pending = s.pending :=
  foldl_pending _ convLost_pending _ s

@[simp] theorem effSet_pending (s : State) : (effSet s).pending = s.pending := by
  unfold effSet
  split <;> simp

@[simp] theorem excMarks_pending (s : State) : (excMarks s).pending = s.pending := by simp [excMarks]

@[simp] theorem cmpEnable_pending (old new : Reader) (s : State) : (cmpEnable old new s).pending = s.pending := by simp [cmpEnable]

@[simp] theorem loopForce_pending (s : State) : (loopForce s).pending = s.pending := by
  simp only [loopForce, effSet_pending, excMarks_pending]
  apply foldl_pending
  exact fun t e => setForce_pending t e.1 _

@[simp] theorem calBegin_pending (s : State) (t : Nat) : (calBegin s t).pending = s.pending := by simp [calBegin]

@[simp] theorem seqLoop_pending (s : State) (t : Nat) : (seqLoop s t).pending = s.pending := by simp [seqLoop, seqBegin]

@[simp] theorem auxNow_pending (s : State) : (auxNow s).pending = s.pending := by simp [auxNow, slotEnd, seqNext]

@[simp] theorem calEnd_pending (s : State) (res : BitVec 3) : (calEnd s res).pending = s.pending := by simp [calEnd]

@[simp] theorem effUpdate_pending (s : State) : (effUpdate s).pending = s.pending := by simp [effUpdate]

@[simp] theorem auxStop_pending (s : State) : (auxStop s).pending = s.pending := by simp [auxStop]

@[simp] theorem auxStart_pending (s : State) (away : Bool) : (auxStart s away).pending = s.pending := by simp [auxStart]

@[simp] theorem deliveryForce_pending (s : State) : (deliveryForce s).pending = s.pending := by simp [deliveryForce]

@[simp] theorem deliver_pending (s : State) (ch : Nat) (v : Int) (clip urg : Bool) : (deliver s ch v clip urg).pending = s.pending := by
  simp [deliver]

@[simp] theorem resultIn_pending (s : State) (c : Conv) (clip : Bool) : (resultIn s c clip).pending = s.pending := by
  unfold resultIn
  split
  · simp
  · simp
  · rfl
  · split <;> simp

@[simp] theorem fenceAdc_pending (s : State) (k : Nat) : (fenceAdc s k).pending = s.pending := by simp [fenceAdc]

@[simp] theorem adcTest_pending (s : State) : (adcTest s).pending = s.pending := by
  unfold adcTest
  split <;> simp

@[simp] theorem urgentRequest_pending (s : State) (ch : Nat) : (urgentRequest s ch).pending = s.pending := by simp [urgentRequest]

@[simp] theorem takeSlot_pending (s : State) (ch : Nat) (x : AuxSample) (since : Nat) (kind : Deliver) :
    (takeSlot s ch x since kind).pending = s.pending := by
  simp [takeSlot, drawRef]

@[simp] theorem trackLost_pending (s : State) (ch : Nat) : (trackLost s ch).pending = s.pending := by simp [trackLost]

@[simp] theorem urgentCount_pending (s : State) (ch : Nat) : (urgentCount s ch).pending = s.pending := by simp [urgentCount]

@[simp] theorem seqSlot_pending (s : State) (x : AuxSample) : (seqSlot s x).pending = s.pending := by simp [seqSlot]

@[simp] theorem sensed_pending (s : State) (j uv : Nat) : (sensed s j uv).pending = s.pending := by simp [sensed]

@[simp] theorem calAbort_pending (s : State) : (calAbort s).pending = s.pending := by simp [calAbort]

@[simp] theorem axcalWrite_pending (s : State) (w : W16) : (axcalWrite s w).pending = s.pending := by simp [axcalWrite]

@[simp] theorem calCoef_pending (s : State) (w : Nat) (v : W16) : (calCoef s w v).pending = s.pending := by simp [calCoef]

@[simp] theorem calZero_pending (s : State) (sum : Int) : (calZero s sum).pending = s.pending := by simp [calZero]

@[simp] theorem calSpan_pending (s : State) (sum : Int) : (calSpan s sum).pending = s.pending := by simp [calSpan]

@[simp] theorem auxTake_pending (s : State) (side : Side) : (auxTake s side).pending = s.pending := by simp [auxTake]

@[simp] theorem auxWrite_pending (s : State) (w : Nat) (v : W16) : (auxWrite s w v).pending = s.pending := by
  simp only [auxWrite, ite_pending, axcalWrite_pending, plainWrite_pending, ite_self]

/-! #### Lamps -/

@[simp] theorem lampsOff_pending (s : State) : (lampsOff s).pending = s.pending := by simp [lampsOff]

@[simp] theorem lampSwitch_pending (s : State) (k : Nat) (on : Bool) : (lampSwitch s k on).pending = s.pending := by simp [lampSwitch]

@[simp] theorem lampShow_pending (s : State) (k : Nat) (d : BitVec 2) : (lampShow s k d).pending = s.pending := by simp [lampShow]

@[simp] theorem lampDiagnose_pending (s : State) (k : Nat) (x : LampOn) : (lampDiagnose s k x).pending = s.pending := by simp [lampDiagnose]

@[simp] theorem lampOffTime_pending (s : State) (k : Nat) (below : Bool) : (lampOffTime s k below).pending = s.pending := by simp [lampOffTime]

@[simp] theorem lampLoad_pending (s : State) (k : Nat) : (lampLoad s k).pending = s.pending := by simp [lampLoad]

@[simp] theorem lampPulse_pending (s : State) (k len : Nat) : (lampPulse s k len).pending = s.pending := by simp [lampPulse]

@[simp] theorem lampDark_pending (s : State) (k : Nat) : (lampDark s k).pending = s.pending := by simp [lampDark]

@[simp] theorem lampEnd_pending (s : State) (k : Nat) (x : LampOn) : (lampEnd s k x).pending = s.pending := by simp [lampEnd]

@[simp] theorem lampfltWrite_pending (s : State) (v : W16) : (lampfltWrite s v).pending = s.pending := by simp [lampfltWrite]

/-! #### The carousel -/

@[simp] theorem wrGran_pending (s : State) (off : Nat) (bs : List Byte) : (wrGran s off bs).pending = s.pending := by simp [wrGran]

@[simp] theorem wrDeltaRow_pending (s : State) (p img t : Nat) (ws : List W16) : (wrDeltaRow s p img t ws).pending = s.pending := by simp [wrDeltaRow]

@[simp] theorem skipGroup_pending (s : State) (p g : Nat) : (skipGroup s p g).pending = s.pending := by simp [skipGroup]

@[simp] theorem firstRun_pending (s : State) (p : Nat) : (firstRun s p).pending = s.pending := by simp [firstRun]

@[simp] theorem listenSkip_pending (s : State) (p : Nat) : (listenSkip s p).pending = s.pending := by simp [listenSkip]

@[simp] theorem runBegins_pending (s : State) (run : Run) : (runBegins s run).pending = s.pending := by simp [runBegins]

@[simp] theorem runEnded_pending (s : State) (run : Run) : (runEnded s run).pending = s.pending := by simp [runEnded]

@[simp] theorem groupIn_pending (s : State) (run : Run) (zerr : List Int) : (groupIn s run zerr).pending = s.pending := by simp [groupIn]

@[simp] theorem decodeGroup_pending (s : State) (run : Run) (errs : List PathError) (zerr : List Int) :
    (decodeGroup s run errs zerr).pending = s.pending := by
  simp [decodeGroup]

@[simp] theorem synInvalid_pending (s : State) (k : Nat) : (synInvalid s k).pending = s.pending := by simp [synInvalid]

@[simp] theorem synNoisy_pending (old new : State) (k : Nat) : (synNoisy old new k).pending = new.pending := by
  unfold synNoisy
  split <;> simp

@[simp] theorem synPlaced_pending (s : State) : (synPlaced s).pending = s.pending := by simp [synPlaced]

@[simp] theorem synTake_pending (s : State) (k : Nat) : (synTake s k).pending = s.pending := by simp [synTake, synInterval]

@[simp] theorem synLatch_pending (s : State) (k : Nat) : (synLatch s k).pending = s.pending := by simp [synLatch]

/-! #### The pipeline -/

/-- As `foldl_pending`, where what each turn answers is named. -/
theorem foldl_pending_of_eq {α : Type} {f : State → α → State} (hf : ∀ s a, ∃ t, f s a = t ∧ t.pending = s.pending) (l : List α) (s : State) :
    (l.foldl f s).pending = s.pending := by
  refine foldl_pending f (fun s a => ?_) l s
  obtain ⟨t, h, ht⟩ := hf s a
  rw [h, ht]

@[simp] theorem granRead_pending (s : State) (off len : Nat) : (granRead s off len).pending = s.pending := by
  unfold granRead
  exact foldl_pending_of_eq (fun t w => ⟨_, rfl, bankFence_pending t _⟩) _ _

@[simp] theorem readThen_pending (s : State) (spans : List (Nat × Nat)) (f : State → State) (hf : ∀ s, (f s).pending = s.pending) :
    (readThen s spans f).pending = s.pending := by
  simp [readThen, hf]

@[simp] theorem overrun_pending (s : State) (p : Nat) : (overrun s p).pending = s.pending := by simp [overrun]

@[simp] theorem restoreGroup_pending (s : State) (p g img : Nat) : (restoreGroup s p g img).pending = s.pending := by simp [restoreGroup]

@[simp] theorem rowFail_pending (s : State) (p t : Nat) : (rowFail s p t).pending = s.pending := by simp [rowFail]

@[simp] theorem rowWrite_pending (s : State) (p t k : Nat) : (rowWrite s p t k).pending = s.pending := by simp [rowWrite, rowSeat]

@[simp] theorem pipeRow_pending (s : State) (p t : Nat) (err : Int) : (pipeRow s p t err).pending = s.pending := by
  unfold pipeRow
  split
  · rfl
  · split
    · rfl
    · simp

@[simp] theorem pipeRows_pending (s : State) (p : Nat) : (pipeRows s p).pending = s.pending := by simp [pipeRows]

@[simp] theorem wrBase_pending (s : State) (p i : Nat) (w : Int) : (wrBase s p i w).pending = s.pending := by simp [wrBase]

@[simp] theorem negTry_pending (s : State) (p i : Nat) : (negTry s p i).pending = s.pending := by
  unfold negTry
  split <;> simp

@[simp] theorem frzRelease_pending (s : State) (p : Nat) : (frzRelease s p).pending = s.pending := by simp [frzRelease]

@[simp] theorem waterStage_pending (s : State) (p img : Nat) (f : PipeFrame) : (waterStage s p img f).1.pending = s.pending := by
  simp [waterStage, apply_ite Prod.fst]

@[simp] theorem regionStage_pending (s : State) (p img : Nat) (f : PipeFrame) (bad : List Nat) :
    (regionStage s p img f bad).1.pending = s.pending := by
  simp [regionStage, apply_ite Prod.fst]

@[simp] theorem keyStage_pending (s : State) (p img : Nat) (f : PipeFrame) : (keyStage s p img f).pending = s.pending := by simp [keyStage]

@[simp] theorem keepStale_pending (s : State) (p img : Nat) (f : PipeFrame) : (keepStale s p img f).pending = s.pending := by
  simp [keepStale, keepRow]

@[simp] theorem baseStage_pending (s : State) (p img : Nat) (f : PipeFrame) : (baseStage s p img f).pending = s.pending := by
  simp [baseStage, baseNode, baseIdle]

@[simp] theorem passEvent_pending (s : State) (p : Nat) : (passEvent s p).pending = s.pending := by simp [passEvent]

@[simp] theorem recheckFail_pending (s : State) (p g n : Nat) : (recheckFail s p g n).pending = s.pending := by simp [recheckFail]

@[simp] theorem recheckStage_pending (s : State) (p img : Nat) (f : PipeFrame) (bad : List Nat) :
    (recheckStage s p img f bad).1.pending = s.pending := by
  simp [recheckStage, apply_ite Prod.fst]

/-- Each stage's state is named before the next is looked at: the header words and the pass's new counts do not matter here. -/
@[simp] theorem finishStages_pending (s : State) (p : Nat) (f : PipeFrame) (bad : List Nat) : (finishStages s p f bad).pending = s.pending := by
  have h3 := (waterStage_pending _ p (imgOf f.seq) f).trans (baseStage_pending s p (imgOf f.seq) f)
  unfold finishStages
  dsimp only
  generalize waterStage (baseStage s p (imgOf f.seq) f) p (imgOf f.seq) f = wet at h3 ⊢
  have h5 := (regionStage_pending wet.1 p (imgOf f.seq) f bad).trans h3
  generalize regionStage wet.1 p (imgOf f.seq) f bad = regions at h5 ⊢
  have h6 := (keyStage_pending regions.1 p (imgOf f.seq) f).trans h5
  generalize keyStage regions.1 p (imgOf f.seq) f = s6 at h6 ⊢
  generalize (headerWords s6 p (imgOf f.seq) f wet.2 regions.2.2 regions.2.1).flatMap le32 = header
  have h7 := (wrGran_pending s6 (gbase (reg s6) (actProg s6) p) header).trans h6
  generalize wrGran s6 (gbase (reg s6) (actProg s6) p) header = s7 at h7 ⊢
  have h8 : ∀ g, (setPass s7 p g).pending = s.pending := fun g => (setPass_pending ..).trans h7
  refine ite_keeps ?late ?onTime
  case late => rw [evalLate_pending, passEvent_pending, h8]
  case onTime => rw [evalPass_pending, passEvent_pending, h8]

@[simp] theorem finishWrite_pending (s : State) (p : Nat) (f0 : PipeFrame) : (finishWrite s p f0).pending = s.pending := by simp [finishWrite]

@[simp] theorem finishPass_pending (s : State) (p : Nat) : (finishPass s p).pending = s.pending := by simp [finishPass]

@[simp] theorem pipeCmd_pending (s : State) (w : W16) : (pipeCmd s w).pending = s.pending := by
  unfold pipeCmd
  split <;> simp

/-! #### Queues -/

@[simp] theorem handOver_pending (s : State) (bulk : Bool) (who : Producer) (bytes : List Byte) :
    (handOver s bulk who bytes).pending = s.pending := by
  simp [handOver]

@[simp] theorem queueResetOp_pending (s : State) (bulk : Bool) (why : QCause) : (queueResetOp s bulk why).pending = s.pending := by
  simp [queueResetOp]

@[simp] theorem queueRead_pending (s : State) (bulk : Bool) (found : Upset) : (queueRead s bulk found).pending = s.pending := by
  unfold queueRead
  dsimp only
  split
  · simp
  · split <;> simp

@[simp] theorem flushEffect_pending (s : State) (bulk : Bool) : (flushEffect s bulk).pending = s.pending := by simp [flushEffect]

@[simp] theorem queueCtl_pending (s : State) (bulk : Bool) (w : W16) : (queueCtl s bulk w).pending = s.pending := by simp [queueCtl]

/-! #### Boot -/

@[simp] theorem carudStart_pending (s : State) : (carudStart s).pending = s.pending := by simp [carudStart]

@[simp] theorem unfselWrite_pending (s : State) (w : W16) : (unfselWrite s w).pending = s.pending := by simp [unfselWrite]

@[simp] theorem refuse_pending (s : State) : (refuse s).pending = s.pending := by simp [refuse]

theorem configFlag_pending (s d : State) (w : Nat) (v : W16) (hd : d.pending = s.pending) : ((configFlag s w v).getD d).pending = s.pending := by
  simp only [configFlag, apply_ite (Option.getD · d), Option.getD_some, Option.getD_none, ite_pending, calcfgWrite_pending, pipeCmd_pending,
    unfselWrite_pending, zclrWrite_pending, permClr_pending, lampfltWrite_pending, hd, ite_self]

@[simp] theorem wrMem_pending (s : State) (a : Nat) (bs : List Byte) : (wrMem s a bs).pending = s.pending := by simp [wrMem]

@[simp] theorem recordWrite_pending (s : State) (w : Nat) (v : W16) : (recordWrite s w v).pending = s.pending :=
  ite_keeps rfl <| ite_keeps rfl <| ite_keeps (ite_keeps rfl rfl) (configFlag_pending s _ w v (plainWrite_pending s w v))

@[simp] theorem applyRecord_pending (s : State) (a : Nat) : (applyRecord s a).pending = s.pending := by simp [applyRecord]

@[simp] theorem applyRoute_pending (s : State) (a : Nat) : (applyRoute s a).pending = s.pending := by simp [applyRoute]

@[simp] theorem applyMicro_pending (s : State) (x : Section) : (applyMicro s x).pending = s.pending := by simp [applyMicro, setMicro]

@[simp] theorem applySection_pending (s : State) (x : Section) : (applySection s x).pending = s.pending := by
  unfold applySection
  split <;> simp

@[simp] theorem unpack_pending (s : State) : (unpack s).pending = s.pending := by simp [unpack]

@[simp] theorem perfBegin_pending (s : State) : (perfBegin s).pending = s.pending := by simp [perfBegin]

@[simp] theorem senseFresh_pending (s : State) : (senseFresh s).pending = s.pending := by simp [senseFresh]

@[simp] theorem enterRun_pending (s : State) : (enterRun s).pending = s.pending := by simp [enterRun, runCommon, runFresh]

@[simp] theorem afterLoad_pending (s : State) : (afterLoad s).pending = s.pending := by simp [afterLoad, enterTree]

@[simp] theorem loadFail_pending (s : State) (why : Nat) : (loadFail s why).pending = s.pending := by simp [loadFail]

@[simp] theorem loadCheck_pending (s : State) : (loadCheck s).pending = s.pending := by
  unfold loadCheck
  split <;> simp

@[simp] theorem stageFlash_pending (s : State) : (stageFlash s).pending = s.pending := by simp [stageFlash]

@[simp] theorem beginLoad_pending (s : State) : (beginLoad s).pending = s.pending := by
  unfold beginLoad
  split <;> simp

@[simp] theorem clocksUp_pending (s : State) : (clocksUp s).pending = s.pending := by simp [clocksUp]

@[simp] theorem buildImage_pending (s : State) : (buildImage s).pending = s.pending := by simp [buildImage]

@[simp] theorem hostGo_pending (s : State) : (hostGo s).pending = s.pending := by
  unfold hostGo
  split <;> simp

/-! #### Link ports -/

@[simp] theorem portSt_pending (s : State) (k : Nat) (st : PortSt) : (portSt s k st).pending = s.pending := by simp [portSt]

@[simp] theorem fenceDone_pending (s : State) : (fenceDone s).pending = s.pending := by simp [fenceDone]

@[simp] theorem pendUpdate_pending (s : State) : (pendUpdate s).pending = s.pending := by simp [pendUpdate]

@[simp] theorem mboxPut_pending (s : State) (k : Nat) (p : Parcel) : (mboxPut s k p).pending = s.pending := by simp [mboxPut]

@[simp] theorem mboxBack_pending (s : State) (k : Nat) (p : Parcel) : (mboxBack s k p).pending = s.pending := by
  unfold mboxBack
  split <;> simp

@[simp] theorem putUp_pending (s : State) (k : Nat) (p : Parcel) : (putUp s k p).pending = s.pending := by simp [putUp]

@[simp] theorem putDown_pending (s : State) (k : Nat) (p : Parcel) : (putDown s k p).pending = s.pending := by simp [putDown]

@[simp] theorem putDownAll_pending (s : State) (ks : List Nat) (p : Parcel) : (putDownAll s ks p).pending = s.pending := by simp [putDownAll]

@[simp] theorem fwddrop_pending (s : State) : (fwddrop s).pending = s.pending := by simp [fwddrop]

@[simp] theorem portUp_pending (s : State) (k : Nat) (d : BitVec 10) : (portUp s k d).pending = s.pending := by
  simp only [portUp, portSt_pending, ite_pending, setPort_pending, foldr_pending _ (fun x t => mboxBack_pending t k x), ite_self]

@[simp] theorem bcastSent_pending (s : State) : (bcastSent s).pending = s.pending := by simp [bcastSent]

@[simp] theorem portQuiet_pending (s : State) (k : Nat) : (portQuiet s k).pending = s.pending := by simp [portQuiet]

@[simp] theorem fencePort_pending (s : State) (k : Nat) (why : W16) : (fencePort s k why).pending = s.pending := by simp [fencePort]

@[simp] theorem portDown_pending (s : State) (k : Nat) : (portDown s k).pending = s.pending := by simp [portDown]

@[simp] theorem trainFail_pending (s : State) (k : Nat) : (trainFail s k).pending = s.pending := by simp [trainFail]

@[simp] theorem trainDown_pending (s : State) (k : Nat) : (trainDown s k).pending = s.pending := by simp [trainDown]

@[simp] theorem addMember_pending (s : State) (addr : BitVec 9) (hops port : Nat) : (addMember s addr hops port).pending = s.pending := by
  simp [addMember]

@[simp] theorem treeCount_pending (s : State) : (treeCount s).pending = s.pending := by simp [treeCount]

@[simp] theorem sendUp_pending (s : State) (p : Parcel) : (sendUp s p).pending = s.pending := by simp [sendUp]

/-! #### The assembler -/

@[simp] theorem paAbort_pending (s : State) : (paAbort s).pending = s.pending := by simp [paAbort]

@[simp] theorem takePacket_pending (s : State) (bulk : Bool) (bytes : List Byte) : (takePacket s bulk bytes).pending = s.pending := by
  simp [takePacket]

@[simp] theorem paDeliver_pending (s : State) : (paDeliver s).pending = s.pending := by simp [paDeliver]

@[simp] theorem paBegin_pending (s : State) (v : W16) : (paBegin s v).pending = s.pending := by simp [paBegin]

@[simp] theorem pastartWrite_pending (s : State) (v : W16) : (pastartWrite s v).pending = s.pending := by simp [pastartWrite]

@[simp] theorem padataWrite_pending (s : State) (v : W16) : (padataWrite s v).pending = s.pending := by simp [padataWrite]

@[simp] theorem pastatWrite_pending (s : State) (v : W16) : (pastatWrite s v).pending = s.pending := by simp [pastatWrite]

theorem paStore_pending {s t : State} {x : Nat × Nat × W32} (h : paStore s x = some t) : t.pending = s.pending := by
  unfold paStore at h
  split at h
  · cases h
  · split at h <;> cases h <;> simp

@[simp] theorem paLate_pending : ∀ (l : List (Nat × Nat × W32)) (s : State), (paLate l s).pending = s.pending
  | [], _ => rfl
  | x :: l, s => by
    unfold paLate
    split
    · rfl
    · next t h => rw [ite_pending, paLate_pending l t, ite_self, paStore_pending h]

@[simp] theorem haltNow_pending (s : State) : (haltNow s).pending = s.pending := by simp [haltNow]

@[simp] theorem paReady_pending (s : State) : (paReady s).pending = s.pending := by
  unfold paReady
  split <;> simp

@[simp] theorem paRelease_pending (s : State) : (paRelease s).pending = s.pending := by
  unfold paRelease
  split <;> simp

@[simp] theorem carudctlWrite_pending (s : State) (w : W16) : (carudctlWrite s w).pending = s.pending := by simp [carudctlWrite]

@[simp] theorem queueTakeNext_pending (s : State) (bulk : Bool) : (queueTakeNext s bulk).pending = s.pending := by
  unfold queueTakeNext
  split <;> simp

@[simp] theorem streamRow_pending (s : State) (p : Nat) (t : Nat) : (streamRow s p t).pending = s.pending := by simp [streamRow, streamSend]

/-! #### Modes -/

@[simp] theorem coreStop_pending (s : State) : (coreStop s).pending = s.pending := by simp [coreStop]

@[simp] theorem coreTry_pending (s : State) : (coreTry s).pending = s.pending := by simp [coreTry, coreQuiet, emptyQueues]

@[simp] theorem lostZero_pending (s : State) : (lostZero s).pending = s.pending :=
  foldl_pending _ (fun _ _ => clearMem_pending ..) _ s

@[simp] theorem perfResume_pending (s : State) : (perfResume s).pending = s.pending := by simp [perfResume]

@[simp] theorem coreResume_pending (s : State) : (coreResume s).pending = s.pending := by simp [coreResume, carudReturn, lostSeats]

@[simp] theorem domainsOff_pending (s : State) : (domainsOff s).pending = s.pending := rfl

@[simp] theorem testAbort_pending (s : State) : (testAbort s).pending = s.pending := by simp [testAbort]

@[simp] theorem beginToward_pending (s : State) : (beginToward s).pending = s.pending := by
  unfold beginToward
  split <;> simp

@[simp] theorem changeDone_pending (s : State) : (changeDone s).pending = s.pending := by
  unfold changeDone
  dsimp only
  split <;> simp

@[simp] theorem unholdWake_pending (s : State) (cause : Nat) : (unholdWake s cause).pending = s.pending := by
  unfold unholdWake
  split <;> simp

@[simp] theorem modeReq_pending (s : State) (m : Mode) (cause : Nat) : (modeReq s m cause).pending = s.pending := by simp [modeReq]

@[simp] theorem modectlWrite_pending (s : State) (w : W16) : (modectlWrite s w).pending = s.pending := by simp [modectlWrite]

@[simp] theorem watchEnter_pending (s : State) : (watchEnter s).pending = s.pending := by
  unfold watchEnter
  split <;> simp

@[simp] theorem scanEnter_pending (s : State) : (scanEnter s).pending = s.pending := by
  unfold scanEnter
  split <;> simp

@[simp] theorem holdoverBeat_pending (s : State) : (holdoverBeat s).pending = s.pending := by
  unfold holdoverBeat
  split <;> simp

@[simp] theorem holdoverEnd_pending (s : State) : (holdoverEnd s).pending = s.pending := by
  unfold holdoverEnd
  split
  · rfl
  · split <;> simp

@[simp] theorem senseStart_pending (s : State) : (senseStart s).pending = s.pending := by simp [senseStart, portsRestart]

@[simp] theorem perfWrite_pending (s : State) (w : W16) : (perfWrite s w).pending = s.pending := by simp [perfWrite]

/-! #### Links and the tree -/

@[simp] theorem windowFail_pending (s : State) (k : Nat) : (windowFail s k).pending = s.pending := by simp [windowFail]

@[simp] theorem receive_pending (s : State) (k : Nat) (x : RxParcel) (typ : BitVec 6) (f : State → State) (hf : ∀ s, (f s).pending = s.pending) :
    (receive s k x typ f).pending = s.pending := by
  simp [receive, crcFail, hf]

@[simp] theorem receiveRoom_pending (s : State) (k : Nat) (x : RxParcel) (typ : BitVec 6) (room : Bool) (f : State → State) (hf : ∀ s, (f s).pending = s.pending) :
    (receiveRoom s k x typ room f).pending = s.pending := by
  simp [receiveRoom, hf]

@[simp] theorem forwardUp_pending (s : State) (k : Nat) (p : Parcel) : (forwardUp s k p).pending = s.pending := by simp [forwardUp]

@[simp] theorem forwardDown_pending (s : State) (k : Nat) (p : Parcel) : (forwardDown s k p).pending = s.pending := by
  simp only [forwardDown, ite_pending]
  split
  · simp
  · split
    · rfl
    · split <;> simp

@[simp] theorem forwardRelay_pending (s : State) (k : Nat) (p : Parcel) : (forwardRelay s k p).pending = s.pending := by simp [forwardRelay]

@[simp] theorem seeCopy_pending (s : State) (p : Parcel) (no : W32) : (seeCopy s p no).pending = s.pending := by simp [seeCopy]

@[simp] theorem reportIn_pending (s : State) (k : Nat) (p : Parcel) (bulk : Bool) : (reportIn s k p bulk).pending = s.pending := by
  simp [reportIn, ringPut]

@[simp] theorem remoteTake_pending (s : State) (dev : BitVec 9) (trips : W32) : (remoteTake s dev trips).pending = s.pending := by simp [remoteTake]

@[simp] theorem fenceIn_pending (s : State) (e : Byte) : (fenceIn s e).pending = s.pending := by simp [fenceIn]

@[simp] theorem mgrLearn_pending (s : State) (k : Nat) (src : BitVec 9) : (mgrLearn s k src).pending = s.pending := by simp [mgrLearn]

@[simp] theorem ackIn_pending (s : State) (p : Parcel) : (ackIn s p).pending = s.pending := by simp [ackIn]

@[simp] theorem ringSide_pending (s : State) (b : Bool) : (ringSide s b).pending = s.pending := by simp [ringSide]

@[simp] theorem ringFollow_pending (s : State) : (ringFollow s).pending = s.pending := by simp [ringFollow]

@[simp] theorem beatFollow_pending (s : State) (p : Parcel) (est : Int) : (beatFollow s p est).pending = s.pending := by
  simp [beatFollow, lockTake, followMode]

@[simp] theorem beatPort_pending (s : State) (k : Nat) (p : Parcel) : (beatPort s k p).pending = s.pending := by
  unfold beatPort
  split <;> simp

@[simp] theorem beatWorker_pending (s : State) (k : Nat) (p : Parcel) (arrived : Int) : (beatWorker s k p arrived).pending = s.pending := by
  simp [beatWorker]

@[simp] theorem ackPort_pending (s : State) (k : Nat) (a : Byte) : (ackPort s k a).pending = s.pending := by simp [ackPort]

@[simp] theorem resend_pending (s : State) (k : Nat) (x : Parcel) : (resend s k x).pending = s.pending := by simp [resend]

@[simp] theorem sendNew_pending (s : State) (k : Nat) (x : Parcel) : (sendNew s k x).1.pending = s.pending := by
  unfold sendNew
  split <;> simp

@[simp] theorem setLine_pending (s : State) (l : List LineItem) : (setLine s l).pending = s.pending := by simp [setLine]

@[simp] theorem windowOther_pending (s : State) (k : Nat) : (windowOther s k).1.pending = s.pending := by
  unfold windowOther
  dsimp only
  split
  · simp
  · split
    · simp
    · split
      · split <;> simp
      · rfl

@[simp] theorem windowSend_pending (s : State) (k : Nat) (again : Bool) : (windowSend s k again).pending = s.pending := by simp [windowSend]

@[simp] theorem grantTake_pending (s : State) (k : Nat) (p : Parcel) : (grantTake s k p).pending = s.pending := by
  unfold grantTake
  dsimp only
  split
  · simp
  · split <;> simp

@[simp] theorem trainTake_pending (s : State) (k : Nat) (rt : Nat) : (trainTake s k rt).pending = s.pending := by
  unfold trainTake
  dsimp only
  split <;> simp

@[simp] theorem grantOpen_pending (s : State) (k : Nat) (before : List LineItem) : (grantOpen s k before).pending = s.pending := by simp [grantOpen]

@[simp] theorem sendDown_pending (s : State) (k : Nat) (x : Parcel) : (sendDown s k x).pending = s.pending := by simp [sendDown]

@[simp] theorem helloOut_pending (s : State) : (helloOut s).pending = s.pending := by simp [helloOut]

@[simp] theorem confirm_pending (s : State) : (confirm s).pending = s.pending := by simp [confirm]

@[simp] theorem helloForward_pending (s : State) (k : Nat) (p : Parcel) : (helloForward s k p).pending = s.pending := by simp [helloForward, addRoute]

@[simp] theorem rtWrite_pending (s : State) (a rt hops : Nat) : (rtWrite s a rt hops).pending = s.pending := by simp [rtWrite]

@[simp] theorem helloAssign_pending (s : State) (rt hops : Nat) : (helloAssign s rt hops).pending = s.pending := by
  unfold helloAssign
  split <;> simp

@[simp] theorem sendImage_pending (s : State) (ks : List Nat) (dst : BitVec 9) : (sendImage s ks dst).pending = s.pending := by simp [sendImage]

@[simp] theorem resendImage_pending (s : State) (a : BitVec 9) : (resendImage s a).pending = s.pending := by
  unfold resendImage
  split <;> simp

@[simp] theorem helloManager_pending (s : State) (k : Nat) (p : Parcel) : (helloManager s k p).pending = s.pending := by
  simp [helloManager, helloConfirm]

@[simp] theorem takeAddress_pending (s : State) (a : BitVec 9) (hops : Nat) : (takeAddress s a hops).pending = s.pending := by simp [takeAddress]

@[simp] theorem imageTake_pending (s : State) (p : Parcel) : (imageTake s p).pending = s.pending := by simp [imageTake]

@[simp] theorem toStandby_pending (s : State) : (toStandby s).pending = s.pending := by simp [toStandby]

@[simp] theorem heartbeatPeer_pending (s : State) (p : Parcel) : (heartbeatPeer s p).pending = s.pending := by simp [heartbeatPeer]

@[simp] theorem takeOver_pending (s : State) : (takeOver s).pending = s.pending := by simp [takeOver]

@[simp] theorem strapStop_pending (s : State) : (strapStop s).pending = s.pending := by simp [strapStop]

/-! #### Containment -/

@[simp] theorem unfcmdWrite_pending (s : State) (w : W16) : (unfcmdWrite s w).pending = s.pending := by simp [unfcmdWrite, testBegin, unfenceAsk]

@[simp] theorem testEnd_pending (s : State) (pass : Bool) : (testEnd s pass).pending = s.pending := by simp [testEnd]

@[simp] theorem gapJudged_pending (s : State) (subs : List Sub) (upTo n : Nat) (good : Bool) :
    (gapJudged s subs upTo n good).pending = s.pending := by
  simp [gapJudged]

@[simp] theorem ampTest_pending (s : State) (i : Nat) (cal : List CalReading) : (ampTest s i cal).pending = s.pending := by
  unfold ampTest
  dsimp only
  split <;> simp

@[simp] theorem elTest_pending (s : State) (i : Nat) (els : List ElMeas) : (elTest s i els).pending = s.pending := by simp [elTest]

@[simp] theorem ramTest_pending (s : State) : (ramTest s).pending = s.pending := by simp [ramTest]

@[simp] theorem testJudge_pending (s : State) (u : UnitId) (cal : List CalReading) (els : List ElMeas) (good : Bool) :
    (testJudge s u cal els good).pending = s.pending := by
  unfold testJudge
  split <;> simp

@[simp] theorem seatUsers_pending (s : State) (u : UnitId) : (seatUsers s u).pending = s.pending := by simp [seatUsers]

@[simp] theorem unfence_pending (s : State) (u : UnitId) (tau : Int) : (unfence s u tau).pending = s.pending := by
  unfold unfence
  split <;> simp

@[simp] theorem unfenceDue_pending (s : State) : (unfenceDue s).pending = s.pending := by simp [unfenceDue, unfenceOne]

@[simp] theorem scrubMem_pending (s : State) (a : Nat) (found : Upset) : (scrubMem s a found).pending = s.pending := by simp [scrubMem, scrubBad]

@[simp] theorem scrubZone_pending (s : State) (w : Nat) (found : Upset) : (scrubZone s w found).pending = s.pending := by
  simp [scrubZone, zoneWordFault]

@[simp] theorem logRead_pending (s : State) (slot : Nat) : (logRead s slot).pending = s.pending := by simp [logRead]

/-! #### The beat -/

@[simp] theorem pipeLate_pending (s : State) (p : Nat) : (pipeLate s p).pending = s.pending := by
  unfold pipeLate
  dsimp only
  split <;> simp

@[simp] theorem frameEnd_pending (s : State) : (frameEnd s).pending = s.pending := by simp [frameEnd, hopFrame]

@[simp] theorem forceStaged_pending (s : State) : (forceStaged s).pending = s.pending := by simp [forceStaged]

@[simp] theorem portsDisable_pending (s : State) : (portsDisable s).pending = s.pending := by simp [portsDisable]

@[simp] theorem synsDisable_pending (s : State) : (synsDisable s).pending = s.pending := by simp [synsDisable]

@[simp] theorem ballDrop_pending (s : State) : (ballDrop s).pending = s.pending := by simp [ballDrop]

@[simp] theorem applyConfig_pending (s : State) : (applyConfig s).pending = s.pending := by simp [applyConfig]

@[simp] theorem boundaryConfig_pending (s : State) : (boundaryConfig s).pending = s.pending := by simp [boundaryConfig]

@[simp] theorem epochTake_pending (s : State) (e : Byte) : (epochTake s e).pending = s.pending := by simp [epochTake, sendAck]

@[simp] theorem boundary_pending (s : State) : (boundary s).pending = s.pending := by
  simp only [boundary, ite_pending, applyTrims_pending, ite_self]
  split <;> simp

@[simp] theorem fenceIssue_pending (s : State) : (fenceIssue s).pending = s.pending := by simp [fenceIssue]

@[simp] theorem fencectlWrite_pending (s : State) (w : W16) : (fencectlWrite s w).pending = s.pending := by simp [fencectlWrite]

@[simp] theorem managerBeat_pending (s : State) : (managerBeat s).pending = s.pending := by simp [managerBeat]

@[simp] theorem alertBeat_pending (s : State) : (alertBeat s).pending = s.pending := by simp [alertBeat]

@[simp] theorem beatCount_pending (s : State) (period : Nat) : (beatCount s period).pending = s.pending := by simp [beatCount, lampsAge]

@[simp] theorem zoneFrame_pending (s : State) (z : Nat) : (zoneFrame s z).pending = s.pending := by simp [zoneFrame]

@[simp] theorem tripUnmeas_pending (s : State) (z : Nat) : (tripUnmeas s z).pending = s.pending := by simp [tripUnmeas]

@[simp] theorem frameCount_pending (s : State) : (frameCount s).pending = s.pending := by simp [frameCount]

@[simp] theorem frameBegin_pending (s : State) : (frameBegin s).pending = s.pending := by
  simp [frameBegin, evalAuxZones, longUpdate, checkBegins, axisCopy]

@[simp] theorem beatsAge_pending (s : State) : (beatsAge s).pending = s.pending := by simp [beatsAge]

@[simp] theorem linkBeat_pending (s : State) : (linkBeat s).pending = s.pending := by simp [linkBeat]

@[simp] theorem beatFrame_pending (s : State) : (beatFrame s).pending = s.pending := by simp [beatFrame, fencesDue]

@[simp] theorem beatStart_pending (s : State) (period : Nat) : (beatStart s period).pending = s.pending := by
  simp [beatStart]

@[simp] theorem ballTake_pending (s : State) (n : Nat) : (ballTake s n).pending = s.pending := by simp [ballTake]

/-! #### Power -/

@[simp] theorem resetAll_pending (s : State) (scr : List (Nat × W16)) : (resetAll s scr).pending = s.pending := rfl

@[simp] theorem resetPin_pending (s : State) : (resetPin s).pending = s.pending := by simp [resetPin]

@[simp] theorem refResume_pending (s : State) : (refResume s).pending = s.pending := by
  unfold refResume
  split <;> simp

/-! #### Register accesses -/

@[simp] theorem hostClear_pending (s : State) (off : Nat) (event : Bool) : (hostClear s off event).pending = s.pending := by
  unfold hostClear
  split <;> simp

@[simp] theorem configRead_pending (s : State) (w : Nat) (event : Bool) : (configRead s w event).pending = s.pending :=
  ite_keeps rfl <| ite_keeps rfl <| ite_keeps (runPresent_pending s) <| ite_keeps rfl <| ite_keeps (setSyn_pending ..) <|
    ite_keeps rfl <| ite_keeps rfl <| ite_keeps rfl <| ite_keeps rfl <| ite_keeps rfl <| ite_keeps rfl <| ite_keeps rfl <|
    ite_keeps rfl <| ite_keeps rfl <| ite_keeps rfl <| ite_keeps (setPort_pending ..) <| ite_keeps (setZone_pending ..) rfl

@[simp] theorem auxRead_pending (s : State) (w : Nat) (event : Bool) : (auxRead s w event).pending = s.pending := by simp [auxRead]

@[simp] theorem logSpaceRead_pending (s : State) (w : Nat) (event : Bool) : (logSpaceRead s w event).pending = s.pending := by simp [logSpaceRead]

@[simp] theorem paWrite_pending (s : State) (side : Side) (w : Nat) (v : W16) : (paWrite s side w v).pending = s.pending := by
  unfold paWrite
  split <;> simp

theorem configAct_pending (s d : State) (side : Side) (w : Nat) (v : W16) (hd : d.pending = s.pending) :
    ((configAct s side w v).getD d).pending = s.pending := by
  simp only [configAct, apply_ite (Option.getD · d), Option.getD_some, ite_pending, carudctlWrite_pending, paWrite_pending, unfcmdWrite_pending,
    configFlag_pending s d w v hd, ite_self]

@[simp] theorem configWrite_pending (s : State) (side : Side) (w : Nat) (v : W16) : (configWrite s side w v).pending = s.pending :=
  configAct_pending s _ side w v (plainWrite_pending s w v)

@[simp] theorem ovrClear_pending (s : State) (v : W16) : (ovrClear s v).pending = s.pending := by simp [ovrClear]

@[simp] theorem scratchCarud_pending (s : State) (v : W16) : (scratchCarud s v).pending = s.pending := by simp [scratchCarud]

@[simp] theorem mirrorWrite_pending (s : State) (off : Nat) (v : W16) : (mirrorWrite s off v).pending = s.pending := by simp [mirrorWrite]

/-! #### Operands of Carud -/

@[simp] theorem rsbotTake_pending (s : State) : (rsbotTake s).pending = s.pending := by simp [rsbotTake]

@[simp] theorem rsbotPut_pending (s : State) (v : W32) : (rsbotPut s v).pending = s.pending := by simp [rsbotPut]

@[simp] theorem cycloTake_pending (s : State) : (cycloTake s).pending = s.pending := by simp [cycloTake]

@[simp] theorem timerPut_pending (s : State) (v : W32) : (timerPut s v).pending = s.pending := by simp [timerPut]

@[simp] theorem blockRead_pending (s : State) (off : Nat) : (blockRead s off).pending = s.pending := by simp [blockRead]

@[simp] theorem mqPut_pending (s : State) (k : Nat) (v : BitVec 64) : (mqPut s k v).pending = s.pending := by simp [mqPut]

@[simp] theorem mqHalf_pending (s : State) (k : Nat) (hi : Bool) (v : W32) : (mqHalf s k hi v).pending = s.pending := by simp [mqHalf]

@[simp] theorem blockWriteLow_pending (s : State) (off : Nat) (v : W32) : (blockWriteLow s off v).pending = s.pending := by
  unfold blockWriteLow
  refine ite_keeps rfl <| ite_keeps rfl <| ite_keeps rfl <| ite_keeps rfl <| ite_keeps rfl <| ite_keeps rfl <| ite_keeps rfl <|
    ite_keeps rfl <| ite_keeps rfl <| ite_keeps (mqHalf_pending ..) <| ite_keeps rfl <| ite_keeps (ite_keeps rfl rfl) <| ite_keeps ?_ rfl
  split <;> rfl

@[simp] theorem blockWrite_pending (s : State) (off : Nat) (v : W32) : (blockWrite s off v).pending = s.pending := by simp [blockWrite]

@[simp] theorem softFix_pending (s : State) (a size : Nat) : (softFix s a size).pending = s.pending := by simp [softFix]

@[simp] theorem mirrorRead_pending (s : State) (o : Nat) : (mirrorRead s o).2.pending = s.pending := by
  simp [mirrorRead, apply_ite Prod.snd]

@[simp] theorem periphRead_pending (s : State) (r : Region) (a : Nat) : (periphRead s r a).2.pending = s.pending := by
  cases r <;>
    simp only [periphRead, apply_ite Prod.snd, ite_pending, mirrorRead_pending, configRead_pending, auxRead_pending, logSpaceRead_pending, ite_self]

@[simp] theorem periphWrite_pending (s : State) (r : Region) (a : Nat) (v : W16) : (periphWrite s r a v).pending = s.pending := by
  cases r <;> simp only [periphWrite, ite_pending, mirrorWrite_pending, configWrite_pending, bitmapWrite_pending, auxWrite_pending, ite_self]

@[simp] theorem memWrite_pending (s : State) (a size : Nat) (v : BitVec 64) : (memWrite s a size v).pending = s.pending := by
  simp [memWrite, keepCode]

@[simp] theorem accWrite_pending (c : Ctx) (a size : Nat) (v : BitVec 64) : (accWrite c a size v).s.pending = c.s.pending := by
  unfold accWrite
  split
  · rfl
  · dsimp only
    split <;> simp
  · split <;> simp

@[simp] theorem lateRun_pending : ∀ (l : List (Nat × Nat × W32)) (s : State), (lateRun l s).pending = s.pending
  | [], _ => rfl
  | x :: l, s => by
    simp only [lateRun, ite_pending, lateRun_pending l, accWrite_pending, ite_self]

@[simp] theorem lateDrain_pending (s : State) : (lateDrain s).pending = s.pending := by
  simp only [lateDrain, ite_pending, haltNow_pending, lateRun_pending, ite_self]

@[simp] theorem putAreg_pending (s : State) (n : Fin 16) (v : W32) : (putAreg s n v).pending = s.pending := by simp [putAreg]

@[simp] theorem circStep_pending (s : State) (n : Fin 16) (c : Nat) (k : Int) : (circStep s n c k).pending = s.pending := by simp [circStep]

@[simp] theorem nodeStep_pending (s : State) (n : Fin 16) (f : Nat) : (nodeStep s n f).pending = s.pending := by simp [nodeStep]

@[simp] theorem opdUpdate_pending (size : Nat) (s : State) (o : Opd) : (opdUpdate size s o).pending = s.pending := by
  unfold opdUpdate
  split <;> simp

@[simp] theorem writeReg_pending (s : State) (h : IHdr) (l : Loc) (v : BitVec 64) : (writeReg s h l v).pending = s.pending := by
  unfold writeReg
  split <;> simp

/-! #### The step of Carud -/

@[simp] theorem doubleFault_pending (s : State) (v : Nat) : (doubleFault s v).pending = s.pending := by simp [doubleFault]

@[simp] theorem trapTake_pending (s : State) (v detail : Nat) (adr : Option W32) (ret : W16) : (trapTake s v detail adr ret).pending = s.pending := by
  simp [trapTake]

@[simp] theorem fenceOf_pending (s : State) (word : Option Nat) : (fenceOf s word).pending = s.pending := by
  unfold fenceOf
  split <;> simp

@[simp] theorem faultTake_pending (s : State) (t : Trap) : (faultTake s t).pending = s.pending := by simp [faultTake]

@[simp] theorem eventTrap_pending (s : State) : (eventTrap s).pending = s.pending := by simp [eventTrap]

@[simp] theorem complete_pending (s : State) (n len : Nat) (d : Done) : (complete s n len d).pending = d.c.s.pending := by
  simp only [complete, ite_pending, corePass_pending, ite_self]

@[simp] theorem passOver_pending (s : State) (len : Nat) : (passOver s len).pending = s.pending := by simp [passOver]

/-- What an instruction's body answers, where it does not trap, satisfies P. -/
def Answers {α : Type} (P : α → Prop) : Except Trap α → Prop
  | .ok a => P a
  | .error _ => True

theorem Answers.bind {α β : Type} {P : α → Prop} {Q : β → Prop} {x : Except Trap α} {f : α → Except Trap β}
    (hx : Answers P x) (hf : ∀ a, P a → Answers Q (f a)) : Answers Q (x >>= f) := by
  cases x with
  | error => trivial
  | ok a => exact hf a hx

theorem Answers.any {α : Type} (x : Except Trap α) : Answers (fun _ => True) x := by cases x <;> trivial

/-- An instruction whose body leaves the queue alone. -/
theorem carudStep_pending (s : State) (h : IHdr) (len : Nat) (check : Option Trap) {body : Except Trap Done}
    (hbody : Answers (fun d => d.c.s.pending = s.pending) body) : (carudStep s h len check body).pending = s.pending := by
  cases body with
  | error t => cases check <;> simp [carudStep]
  | ok d =>
    have hd : d.c.s.pending = s.pending := hbody
    cases check <;> simp [carudStep, hd]

/-! #### Reads and writes of operands -/

theorem accRead_pending (c : Ctx) (a size : Nat) : Answers (fun x => x.2.s.pending = c.s.pending) (accRead c a size) := by
  unfold accRead
  split
  · trivial
  · trivial
  · dsimp only
    split <;> simp [Answers]
  · split
    · split <;> simp [Answers]
    · split <;> simp [Answers]

theorem readLoc_pending (c : Ctx) (l : Loc) (h : IHdr) : Answers (fun x => x.2.s.pending = c.s.pending) (readLoc c l h) := by
  cases l with
  | val => rfl
  | reg => rfl
  | outside => rfl
  | mem a =>
    have hr := accRead_pending c a (szBytes h.sz)
    simp only [readLoc]
    cases hx : accRead c a (szBytes h.sz) with
    | error => exact trivial
    | ok x => rw [hx] at hr; exact hr

theorem readOpd_pending (s0 : State) (h : IHdr) (c : Ctx) (o : Opd) : Answers (fun x => x.2.s.pending = c.s.pending) (readOpd s0 h c o) := by
  unfold readOpd
  split
  · trivial
  · exact readLoc_pending c _ h

@[simp] theorem writeMem_pending (c : Ctx) (h : IHdr) (l : Loc) (v : BitVec 64) : (writeMem c h l v).s.pending = c.s.pending := by
  unfold writeMem
  split <;> simp

@[simp] theorem finish_pending (c : Ctx) (h : IHdr) (ops : List Opd) (l : Loc) (v : BitVec 64) :
    (finish c h ops l v).c.s.pending = c.s.pending := by
  unfold finish
  dsimp only
  split <;> simp

@[simp] theorem finishRead_pending (c : Ctx) (h : IHdr) (ops : List Opd) (f : Carud → Carud) :
    (finishRead c h ops f).c.s.pending = c.s.pending := by simp [finishRead]

/-! #### Bodies of instructions -/

theorem unary_pending (s : State) (h : IHdr) (d src : Opd) (f : W32 → BitVec 64) :
    Answers (fun x => x.c.s.pending = s.pending) (unary s h d src f) :=
  .bind (.any _) fun _ _ => .bind (readOpd_pending s h _ src) fun _ ha => (finish_pending _ _ _ _ _).trans ha

theorem binary_pending (s : State) (h : IHdr) (d s1 s2 : Opd) (f : W32 → W32 → BitVec 64) :
    Answers (fun x => x.c.s.pending = s.pending) (binary s h d s1 s2 f) :=
  .bind (.any _) fun _ _ => .bind (readOpd_pending s h _ s1) fun _ ha => .bind (readOpd_pending s h _ s2) fun _ hb =>
    (finish_pending _ _ _ _ _).trans (hb.trans ha)

theorem sources_pending (s : State) (h : IHdr) (s1 s2 : Opd) (f : W32 → W32 → Carud → Carud) :
    Answers (fun x => x.c.s.pending = s.pending) (sources s h s1 s2 f) :=
  .bind (readOpd_pending s h _ s1) fun _ ha => .bind (readOpd_pending s h _ s2) fun _ hb =>
    (finishRead_pending _ _ _ _).trans (hb.trans ha)

@[simp] theorem runUnary_pending (s : State) (h : IHdr) (sizeOk xOk : Bool) (d src : Opd) (f : W32 → BitVec 64) :
    (runUnary s h sizeOk xOk d src f).pending = s.pending := carudStep_pending _ _ _ _ (unary_pending _ _ _ _ _)

@[simp] theorem runBinary_pending (s : State) (h : IHdr) (d s1 s2 : Opd) (f : W32 → W32 → BitVec 64) :
    (runBinary s h d s1 s2 f).pending = s.pending := carudStep_pending _ _ _ _ (binary_pending _ _ _ _ _ _)

@[simp] theorem runSources_pending (s : State) (h : IHdr) (xOk : Bool) (s1 s2 : Opd) (f : W32 → W32 → Carud → Carud) :
    (runSources s h xOk s1 s2 f).pending = s.pending := carudStep_pending _ _ _ _ (sources_pending _ _ _ _ _)

theorem movD_pending (s : State) (h : IHdr) (d src : Opd) : Answers (fun x => x.c.s.pending = s.pending) (movD s h d src) := by
  have hread : ∀ m, Answers (fun x => x.2.s.pending = s.pending) (readD { s := s } m) := fun m => by
    cases m with
    | mem a => exact accRead_pending _ a 8
    | _ => rfl
  exact .bind (.any _) fun _ _ => .bind (.any _) fun m _ => .bind (hread m) fun _ ha => (finish_pending _ _ _ _ _).trans ha

/-! #### Data instructions and flow -/

@[simp] theorem addrOf_pending (s : State) (l : Loc) : (addrOf s l).2.pending = s.pending := by
  unfold addrOf
  split <;> simp

theorem leaBody_pending (s : State) (h : IHdr) (d src : Opd) : Answers (fun x => x.c.s.pending = s.pending) (leaBody s h d src) :=
  .bind (.any _) fun _ _ => .bind (.any _) fun m _ => (finish_pending _ _ _ _ _).trans (addrOf_pending s m)

theorem mqrdBody_pending (s : State) (h : IHdr) (d : Opd) : Answers (fun x => x.c.s.pending = s.pending) (mqrdBody s h d) :=
  .bind (.any _) fun _ _ => finish_pending _ _ _ _ _

theorem crcwBody_pending (s : State) (h : IHdr) (src : Opd) : Answers (fun x => x.c.s.pending = s.pending) (crcwBody s h src) :=
  .bind (readOpd_pending s h _ src) fun _ ha => (finishRead_pending _ _ _ _).trans ha

theorem residBody_pending (s : State) (h : IHdr) (d src : Opd) : Answers (fun x => x.c.s.pending = s.pending) (residBody s h d src) :=
  .bind (.any _) fun l _ => .bind (readLoc_pending _ l _) fun _ ha => .bind (readOpd_pending s h _ src) fun _ hb =>
    (finish_pending _ _ _ _ _).trans (hb.trans ha)

theorem brBody_pending (s : State) (h : IHdr) : Answers (fun x => x.c.s.pending = s.pending) (brBody s h) :=
  .bind (.any _) fun _ _ => rfl

theorem jmpBody_pending (s : State) (h : IHdr) (src : Opd) : Answers (fun x => x.c.s.pending = s.pending) (jmpBody s h src) :=
  .bind (readOpd_pending s h _ src) fun _ ha => .bind (.any _) fun _ _ => (finishRead_pending _ _ _ _).trans ha

theorem callBody_pending (s : State) (h : IHdr) : Answers (fun x => x.c.s.pending = s.pending) (callBody s h) :=
  .bind (.any _) fun _ _ => .bind (.any _) fun _ _ => rfl

theorem calliBody_pending (s : State) (h : IHdr) (src : Opd) : Answers (fun x => x.c.s.pending = s.pending) (calliBody s h src) := by
  refine .bind (readOpd_pending s h _ src) fun a ha => .bind (.any _) fun t _ => .bind (.any _) fun rs _ => ?_
  have hr := finishRead_pending a.2 h [src] (fun c => { c with rs := rs })
  exact hr.trans ha

theorem retBody_pending (s : State) : Answers (fun x => x.c.s.pending = s.pending) (retBody s) := .bind (.any _) fun _ _ => rfl

theorem resumeBody_pending (s : State) : Answers (fun x => x.c.s.pending = s.pending) (resumeBody s) := .bind (.any _) fun _ _ => rfl

theorem loopOpen_pending (s : State) (h : IHdr) (src : Opd) (a : W32 × Ctx) : (loopOpen s h src a).c.s.pending = a.2.s.pending := by
  unfold loopOpen
  dsimp only
  split <;> simp

theorem loopBody_pending (s : State) (h : IHdr) (src : Opd) : Answers (fun x => x.c.s.pending = s.pending) (loopBody s h src) := by
  unfold loopBody
  dsimp only
  split
  · trivial
  · exact .bind (readOpd_pending s h _ src) fun _ ha => (loopOpen_pending s h src _).trans ha

theorem lbrkBody_pending (s : State) (h : IHdr) : Answers (fun x => x.c.s.pending = s.pending) (lbrkBody s h) := by
  unfold lbrkBody
  dsimp only
  split
  · trivial
  · exact .bind (.any _) fun _ _ => rfl

/-! #### Waiting -/

@[simp] theorem waitBegin_pending (s : State) : (waitBegin s).pending = s.pending := by simp [waitBegin]

/-! #### Gather copies -/

@[simp] theorem gatherFault_pending (s : State) (k : Nat) (t : Trap) : (gatherFault s k t).pending = s.pending := by simp [gatherFault]

@[simp] theorem elementPass_pending (c : Ctx) : (elementPass c).pending = c.s.pending := by simp [elementPass]

@[simp] theorem gathDone_pending (s : State) (h : IHdr) (ops : List Opd) : (gathDone s h ops).pending = s.pending := by simp [gathDone]

/-- R236: a place that is read, or not, is no write of the queue. -/
theorem elemRead_pending (c : Ctx) (l : Loc) (size : Nat) : Answers (fun x => x.2.s.pending = c.s.pending) (elemRead c l size) := by
  cases l with
  | mem a => exact accRead_pending c a size
  | _ => rfl

theorem elemWrite_pending (c : Ctx) (l : Loc) (size : Nat) (v : BitVec 64) : Answers (fun x => x.s.pending = c.s.pending) (elemWrite c l size v) := by
  unfold elemWrite
  split
  · split
    · trivial
    · exact accWrite_pending c _ size v
  · rfl

theorem element_pending (s : State) (size : Nat) (g : GathOps) (k : Nat) : Answers (fun x => x.s.pending = s.pending) (element s size g k) :=
  .bind (elemRead_pending _ _ _) fun _ hx => .bind (elemRead_pending _ _ _) fun w hw => by
    have h := elemWrite_pending w.2 (elemLoc g.d (k * size)) size w.1
    rwa [hw.trans hx] at h

@[simp] theorem elements_pending (h : IHdr) (ops : List Opd) (g : GathOps) (cut : Option (Fin 16)) :
    ∀ (m k : Nat) (s : State), (elements h ops g cut m k s).pending = s.pending
  | 0, _, s => gathDone_pending s h ops
  | m + 1, k, s => by
    have he := element_pending s (szBytes h.sz) g k
    unfold elements
    split
    · simp
    · next c hc =>
      rw [hc] at he
      have hs : c.s.pending = s.pending := he
      simp [elements_pending h ops g cut m, hs]

theorem gathRun_pending (s : State) (h : IHdr) (d b i : Opd) (cut : Option (Fin 16)) :
    Answers (fun t => t.pending = s.pending) (gathRun s h d b i cut) :=
  .bind (.any _) fun _ _ => .bind (.any _) fun _ _ => .bind (.any _) fun _ _ => by
    dsimp only
    split
    · exact elements_pending _ _ _ _ _ _ _
    · exact (elements_pending _ _ _ _ _ _ _).trans (corePass_pending s 1)

/-! #### Halts -/

@[simp] theorem haltWaits_pending (s : State) : (haltWaits s).pending = s.pending := by simp [haltWaits]

/-! #### User instructions -/

@[simp] theorem commitOne_pending (u : UCtx) (c : Ctx) (b : Buf) : (commitOne u c b).s.pending = c.s.pending := by
  cases b <;> simp [commitOne]

@[simp] theorem commitNext_pending (u : UCtx) (c : Ctx) (b : Buf) : (commitNext u c b).s.pending = c.s.pending := by
  unfold commitNext
  split <;> simp

theorem foldl_ctx_pending (f : Ctx → Buf → Ctx) (hf : ∀ c b, (f c b).s.pending = c.s.pending) (l : List Buf) (c : Ctx) :
    (l.foldl f c).s.pending = c.s.pending := by
  induction l generalizing c with
  | nil => rfl
  | cons b l ih => rw [List.foldl_cons, ih, hf]

theorem userCommit_pending (u : UCtx) (ops : List Opd) (issue : List Nat) (m : Micro) :
    (userCommit u ops issue m).c.s.pending = m.c.s.pending := by
  have hfold := foldl_ctx_pending (commitNext u) (commitNext_pending u) m.buf m.c
  unfold userCommit
  dsimp only
  split
  · simp [hfold]
  · dsimp only
    split <;> simp [hfold]

/-- What a micro-operation leaves of the queue is what it found. -/
abbrev microKeeps (m : Micro) : Except Trap Micro → Prop := Answers (fun x => x.c.s.pending = m.c.s.pending)

theorem bufPut_pending (m : Micro) (b : Buf) : microKeeps m (bufPut m b) := by
  unfold bufPut
  split
  · trivial
  · rfl

theorem o1Put_pending (u : UCtx) (m : Micro) (v : W32) : microKeeps m (o1Put u m v) := by
  unfold o1Put
  split
  · split
    · trivial
    · split
      · split
        · trivial
        · exact bufPut_pending m _
      · exact bufPut_pending m _
  · trivial

theorem selPut_pending (u : UCtx) (m : Micro) (i : Nat) (v : W32) : microKeeps m (selPut u m i v) := by
  unfold selPut
  split
  · rfl
  · split
    · exact o1Put_pending u m v
    · split
      · exact bufPut_pending m _
      · split
        · rfl
        · trivial

theorem microLd_pending (u : UCtx) (m : Micro) (a size : Nat) (zero : Bool) :
    Answers (fun x => x.2.c.s.pending = m.c.s.pending) (microLd u m a size zero) := by
  have hread := accRead_pending { m.c with got := [] } a size
  unfold microLd
  split
  · trivial
  · split
    · trivial
    · cases hx : accRead { m.c with got := [] } a size with
      | error => rfl
      | ok y => rw [hx] at hread; exact hread

theorem microSt_pending (m : Micro) (a size : Nat) (v : W32) : microKeeps m (microSt m a size v) := by
  unfold microSt
  split
  · trivial
  · split
    · trivial
    · exact bufPut_pending m _

theorem microMem_pending (u : UCtx) (m : Micro) (o : MicroOp) (a b : W32) : microKeeps m (microMem u m o a b) := by
  unfold microMem
  split
  · refine .bind (.any _) fun _ _ => .bind (microLd_pending u m _ _ _) fun x hx => ?_
    have h := selPut_pending u x.2 o.dst x.1
    rwa [microKeeps, hx] at h
  · split
    · exact .bind (.any _) fun _ _ => .bind (.any _) fun _ _ => microSt_pending m _ _ _
    · exact .bind (.any _) fun _ _ => bufPut_pending m _

theorem microOp_pending (u : UCtx) (m : Micro) (o : MicroOp) : microKeeps m (microOp u m o) := by
  unfold microOp
  split
  · dsimp only
    split
    · trivial
    · rfl
  · split
    · split
      · exact bufPut_pending m _
      · trivial
    · split
      · trivial
      · refine .bind (.any _) fun a _ => ?_
        have hb : ∀ b, microKeeps m (if o.mop = 0x0F then
            .ok { m with up := if o.dst % 4 = 0 then m.up else putBit m.up (o.dst % 4) (microCmp (o.aux % 8) a b) }
          else if o.mop = 0x10 ∨ o.mop = 0x11 ∨ o.mop = 0x12 then microMem u m o a b
          else selPut u m o.dst (microValue o a b)) := fun b => by
          split
          · rfl
          · split
            · exact microMem_pending u m o a b
            · exact selPut_pending u m _ _
        dsimp only
        split
        · exact .bind (.any _) fun b _ => hb b
        · exact .bind (.any _) fun b _ => hb b

/-- A property of what a structural recursion answers, from its turns. -/
theorem brecOn_induction {α β : Type} {F : ∀ n, Nat.below (motive := fun _ => α → β) n → α → β} {P : α → β → Prop}
    (zero : ∀ b a, P a (F 0 b a)) (succ : ∀ n b, (∀ a, P a (b.1 a)) → ∀ a, P a (F (n + 1) b a)) :
    ∀ n a, P a (Nat.brecOn (motive := fun _ => α → β) n F a) := by
  intro n
  induction n with
  | zero => exact zero _
  | succ n ih => exact succ n _ ih

/-- R251 to R253: one turn of the loop of the micro-ops, over what the turns after it do. -/
theorem microRun_turn_pending (u : UCtx) (n : Nat) (go : Nat.below (motive := fun _ => Micro → Except Trap Micro) (n + 1))
    (hgo : ∀ m, microKeeps m (go.1 m)) (m : Micro) : microKeeps m (microRun._f u (n + 1) go m) := by
  have hop := microOp_pending u { m with e := m.e + 1, ran := m.ran + 1 } (fields (microEntry m.c.s m.e))
  unfold microRun._f
  dsimp only
  split
  · trivial
  · split
    · exact hgo _
    · split
      · rfl
      · split
        · trivial
        · next m2 h2 =>
          rw [h2] at hop
          have h := hgo m2
          rwa [microKeeps, show m2.c.s.pending = m.c.s.pending from hop] at h

theorem microRun_eq (u : UCtx) (fuel : Nat) (m : Micro) : microRun u fuel m = Nat.brecOn fuel (microRun._f u) m := by
  delta microRun
  rfl

theorem microRun_pending (u : UCtx) (fuel : Nat) (m : Micro) : microKeeps m (microRun u fuel m) := by
  rw [microRun_eq]
  exact brecOn_induction (F := microRun._f u) (P := microKeeps) (fun _ _ => trivial) (microRun_turn_pending u) fuel m

theorem operands_pending (s0 : State) (h : IHdr) (readFirst : Bool) (free : Nat) :
    ∀ (i : Nat) (ops : List Opd) (c : Ctx), Answers (fun x => x.2.2.s.pending = c.s.pending) (operands s0 h readFirst free i ops c)
  | _, [], _ => rfl
  | i, o :: t, c => by
    unfold operands
    split
    · trivial
    · split
      · trivial
      · next x hx =>
        have hc : x.2.s.pending = c.s.pending := by
          unfold operandVal at hx
          split at hx
          · have hr := readOpd_pending s0 h c o
            rw [hx] at hr
            exact hr
          · cases hx; rfl
        have ht := operands_pending s0 h readFirst free (i + 1) t x.2
        split
        · trivial
        · next y hy => rw [hy] at ht; exact ht.trans hc

theorem userBody_pending (s : State) (h : IHdr) (e : W32) (ops : List Opd) :
    Answers (fun x => x.c.s.pending = s.pending) (userBody s h e ops) := by
  refine .bind (operands_pending _ _ _ _ _ _ _) fun _ hx => ?_
  dsimp only
  split
  · exact .bind (.any _) fun _ _ => .bind (microRun_pending _ _ _) fun _ hm => (userCommit_pending _ _ _ _).trans (hm.trans hx)
  · exact .bind (.any _) fun _ _ => .bind (microRun_pending _ _ _) fun _ hm => (userCommit_pending _ _ _ _).trans (hm.trans hx)

/-! #### Accesses of Carud -/

@[simp] theorem carudAccess_pending (s : State) (f : State → State) (hf : ∀ s, (f s).pending = s.pending) :
    (carudAccess s f).pending = s.pending := by
  simp [carudAccess, hf]

/-! #### Firmware -/

@[simp] theorem fwRead_pending (s : State) : (fwRead s).pending = s.pending := by simp [fwRead]

@[simp] theorem sendReports_pending (s : State) (ovf : Bool) (rs : List Report) : (sendReports s ovf rs).pending = s.pending := by
  simp [sendReports, reportSend]

@[simp] theorem putWords_pending (s : State) (key : Nat) (ws : List W16) : (putWords s key ws).pending = s.pending := by simp [putWords]

@[simp] theorem lsWrite_pending (s : State) (recs : List (List Byte)) : (lsWrite s recs).pending = s.pending := by simp [lsWrite]

@[simp] theorem objWrite_pending (s : State) (recs : List (List Byte)) : (objWrite s recs).pending = s.pending := by simp [objWrite]

@[simp] theorem ringDrain_pending : ∀ (n : Nat) (s : State), (ringDrain s n).pending = s.pending
  | 0, _ => rfl
  | n + 1, s => by simp [ringDrain, ringDrain_pending n]

@[simp] theorem contactsFrame_pending (s : State) : (contactsFrame s).1.pending = s.pending := by simp [contactsFrame]

@[simp] theorem objectsFrame_pending (s : State) (own : List Shown) : (objectsFrame s own).1.pending = s.pending :=
  ringDrain_pending 512 s

@[simp] theorem keysSeen_pending (s : State) : (keysSeen s).pending = s.pending := by simp [keysSeen]

@[simp] theorem retrackHops_pending (s : State) : (retrackHops s).pending = s.pending := by simp [retrackHops]

@[simp] theorem firmwareFrame_pending (s : State) : (firmwareFrame s).pending = s.pending := by
  simp [firmwareFrame, apply_ite Prod.fst]

/-! #### The window -/

@[simp] theorem winErr_pending (s : State) (e : BitVec 4) : (winErr s e).pending = s.pending := by simp [winErr]

@[simp] theorem winStep_pending (s : State) : (winStep s).pending = s.pending := by simp [winStep]

@[simp] theorem loadWord_pending (s : State) (a : Nat) : (loadWord s a).2.2.pending = s.pending := by
  unfold loadWord
  split <;> simp

@[simp] theorem storeWord_pending (s : State) (a : Nat) (v : W32) : (storeWord s a v).pending = s.pending := by simp [storeWord]

@[simp] theorem rmwHalf_pending (s : State) (sp lin : Nat) (v : W16) : (rmwHalf s sp lin v).pending = s.pending := by simp [rmwHalf]

@[simp] theorem regRead_pending (s : State) (sp lin : Nat) : (regRead s sp lin).2.pending = s.pending := by
  unfold regRead
  split <;> simp

@[simp] theorem microWrite_pending (s : State) (lin : Nat) (v : W16) : (microWrite s lin v).pending = s.pending := by simp [microWrite]

@[simp] theorem regWrite_pending (s : State) (sp lin : Nat) (v : W16) : (regWrite s sp lin v).pending = s.pending := by
  unfold regWrite
  split <;> simp

@[simp] theorem settle_pending (s : State) : (settle s).pending = s.pending := by
  unfold settle
  split <;> simp

@[simp] theorem memLoad_pending (lin sp : Nat) (x : W32 × Bool × State) : (memRead.memLoad sp lin x).2.pending = x.2.2.pending := by
  simp [memRead.memLoad, apply_ite Prod.snd]

@[simp] theorem memRead_pending (s : State) (sp lin : Nat) : (memRead s sp lin).2.pending = s.pending := by
  unfold memRead
  dsimp only
  split <;> simp [apply_ite Prod.snd]

@[simp] theorem memPut_pending (s : State) (sp lin : Nat) (v : W16) : (memPut s sp lin v).pending = s.pending := by
  unfold memPut
  split
  · simp
  · split <;> simp

@[simp] theorem requestOut_pending (s : State) (write : Bool) : (requestOut s write).pending = s.pending := by simp [requestOut]

@[simp] theorem remSend_pending (s : State) : (remSend s).pending = s.pending := by simp [remSend]

@[simp] theorem remWrite_pending (s : State) (lin : Nat) (v : W16) : (remWrite s lin v).pending = s.pending := by simp [remWrite]

@[simp] theorem remRead_pending (s : State) : (remRead s).2.pending = s.pending := by
  unfold remRead
  split <;> simp

@[simp] theorem dropFetched_pending (s : State) : (dropFetched s).pending = s.pending := by simp [dropFetched]

@[simp] theorem bootWritten_pending (s : State) : (bootWritten s).pending = s.pending := by simp [bootWritten]

@[simp] theorem winWrites_pending (s : State) (f : State → State) (hf : ∀ s, (f s).pending = s.pending) : (winWrites s f).pending = s.pending := by
  simp [winWrites, hf]

@[simp] theorem winRegWrites_pending (s : State) (f : State → State) (hf : ∀ s, (f s).pending = s.pending) :
    (winRegWrites s f).pending = s.pending := by
  simp [winRegWrites, hf]

@[simp] theorem windatGet_pending (s : State) : (windatGet s).pending = s.pending := by
  unfold windatGet
  dsimp only
  split <;> simp [apply_ite Prod.snd]

@[simp] theorem windatPut_pending (s : State) (v : W16) : (windatPut s v).pending = s.pending := by
  unfold windatPut
  split
  · simp
  · split <;> simp

@[simp] theorem winselPut_pending (s : State) (remadr : Bool) (v : W16) : (winselPut s remadr v).pending = s.pending := by simp [winselPut]

@[simp] theorem winstatPut_pending (s : State) (w : W16) : (winstatPut s w).pending = s.pending := by simp [winstatPut, fetchStart]

@[simp] theorem tgtRead_pending (s : State) (sp lin : Nat) : (tgtRead s sp lin).2.2.pending = s.pending := by
  unfold tgtRead
  split <;> simp

@[simp] theorem tgtReads_pending (sp : Nat) : ∀ (n lin : Nat) (s : State), (tgtReads s sp n lin).2.2.pending = s.pending
  | 0, _, _ => rfl
  | n + 1, lin, s => (tgtReads_pending sp n (lin + 1) _).trans (tgtRead_pending s sp lin)

@[simp] theorem tgtWrites_pending (sp : Nat) : ∀ (l : List W16) (lin : Nat) (s : State), (tgtWrites s sp lin l).pending = s.pending
  | [], _, _ => rfl
  | [v], lin, s => by simp [tgtWrites]
  | v :: w :: t, lin, s => by simp [tgtWrites, tgtWrites_pending sp t, tgtWrites_pending sp (w :: t)]

@[simp] theorem serve_pending (s : State) (p : Parcel) : (serve s p).2.2.pending = s.pending := by
  simp [serve, apply_ite Prod.snd]

@[simp] theorem serveReq_pending (s : State) (k : Nat) (p : Parcel) : (serveReq s k p).pending = s.pending := by simp [serveReq]

@[simp] theorem takeRsp_pending (s : State) (p : Parcel) : (takeRsp s p).pending = s.pending := by
  unfold takeRsp
  split
  · rfl
  · simp only [ite_pending]
    split
    · rfl
    · split <;> simp

/-! #### The host port -/

@[simp] theorem hostWrites_pending (s : State) (f : State → State) (hf : ∀ s, (f s).pending = s.pending) : (hostWrites s f).pending = s.pending := by
  simp [hostWrites, hf]

@[simp] theorem hostReads_pending (s : State) (f : State → State × W16) (hf : ∀ s, (f s).1.pending = s.pending) :
    (hostReads s f).pending = s.pending := by
  simp [hostReads, hf]

@[simp] theorem beatloGet_pending (s : State) : (beatloGet s).1.pending = s.pending := by
  unfold beatloGet
  split <;> simp

@[simp] theorem calcntGet_pending (s : State) : (calcntGet s).1.pending = s.pending := by
  unfold calcntGet
  split <;> simp

@[simp] theorem auxdataGet_pending (s : State) : (auxdataGet s).1.pending = s.pending := by
  unfold auxdataGet
  split <;> simp

@[simp] theorem queueGet_pending (s : State) (bulk : Bool) (found : Upset) : (queueGet s bulk found).1.pending = s.pending := by
  unfold queueGet
  split <;> simp

@[simp] theorem bootctlPut_pending (s : State) (w : W16) : (bootctlPut s w).pending = s.pending := by simp [bootctlPut]

@[simp] theorem clearHost_pending (s : State) (off : Nat) (event : Bool) : (clearHost s off event).1.pending = s.pending := by
  unfold clearHost
  split <;> simp

@[simp] theorem hostSpace_pending (s : State) (f g : State → State) (hf : ∀ s, (f s).pending = s.pending) (hg : ∀ s, (g s).pending = s.pending) :
    (hostSpace s f g).pending = s.pending := by
  unfold hostSpace
  split <;> simp [hf, hg]

@[simp] theorem writeSpace_pending (s : State) (f : State → State) (hf : ∀ s, (f s).pending = s.pending) : (writeSpace s f).pending = s.pending := by
  simp [writeSpace, hf]

@[simp] theorem readSpace_pending (s : State) (f : State → State) (hf : ∀ s, (f s).pending = s.pending) :
    (readSpace s f).pending = s.pending := by
  simp only [readSpace, ite_pending, hostSpace_pending s f _ hf (setHd_pending · 0), setHd_pending, ite_self]

@[simp] theorem clearSpace_pending (s : State) (f : State → State × W16) (hf : ∀ s, (f s).1.pending = s.pending) :
    (clearSpace s f).pending = s.pending := by
  simp [clearSpace, hf]

@[simp] theorem hostGet_pending (s : State) (off : Nat) (event : Bool) : (hostGet s off event).1.pending = s.pending := by
  unfold hostGet
  split <;> simp

@[simp] theorem hostRegWrite_pending (s : State) (off : Nat) (v : W16) : (hostRegWrite s off v).pending = s.pending := by
  simp [hostRegWrite, winadrPut, hostRegPut]

@[simp] theorem carudRegWrite_pending (s : State) (r : RegTarget) (v : W16) : (carudRegWrite s r v).pending = s.pending := by
  unfold carudRegWrite
  split <;> simp

/-! #### JTAG -/

@[simp] theorem jtagTake_pending (s : State) (ir : JtagIr) (dr : W32) : (jtagTake s ir dr).pending = s.pending := by simp [jtagTake]

@[simp] theorem carHold_pending (s : State) : (carHold s).pending = s.pending := by simp [carHold]

/-! ### What a command answers -/

/-- The command answers a next state, whose queue is that of the state before. -/
def LeavesQueue (s : State) (r : Res) : Prop := ∃ t, r = .next t ∧ t.pending = s.pending

section
variable {s : State}

theorem unheld_keeps {t : State} (h : t.pending = s.pending) : (unheld s t).pending = s.pending := ite_keeps rfl h

theorem elchkStep_leaves (caps : List (Nat × Bool)) (coups : List Nat) : LeavesQueue s (execElchkStep caps coups s) := by
  refine ⟨_, rfl, unheld_keeps (ite_keeps rfl ?_)⟩
  split <;> simp

theorem lampEdgeDeferred_leaves (k : Fin 8) (x : LampOn) : LeavesQueue s (execLampEdgeDeferred k x s) := by
  refine ⟨_, rfl, ite_keeps rfl ?_⟩
  split <;> simp

theorem passStart_leaves (p : Fin 16) (at_ : Nat) : LeavesQueue s (execPassStart p at_ s) := by
  refine ⟨_, rfl, unheld_keeps (ite_keeps rfl ?_)⟩
  dsimp only
  split <;> simp

theorem groupDecode_leaves (p : Fin 16) (g : Nat) (errs : List PathError) (zerr : List Int) :
    LeavesQueue s (execGroupDecode p g errs zerr s) := by
  refine ⟨_, rfl, unheld_keeps (ite_keeps rfl ?_)⟩
  split <;> simp

theorem selfStepDone_leaves (p : Fin 16) (zerr : Int) : LeavesQueue s (execSelfStepDone p zerr s) := by
  refine ⟨_, rfl, unheld_keeps (ite_keeps rfl ?_)⟩
  split <;> simp

theorem urgentConversion_leaves (x : AuxInputs) (vref : Nat) : LeavesQueue s (execUrgentConversion x vref s) := by
  refine ⟨_, rfl, ?_⟩
  dsimp only
  split <;> simp

theorem auxResult_leaves (parityBad : Bool) : LeavesQueue s (execAuxResult parityBad s) := by
  refine ⟨_, rfl, ?_⟩
  dsimp only
  split <;> simp

theorem listenEnd_leaves (p : Fin 16) (samples : List (List Int)) : LeavesQueue s (execListenEnd p samples s) := by
  refine ⟨_, rfl, unheld_keeps (ite_keeps rfl ?_)⟩
  split <;> simp

theorem endRx_leaves (port : Fin 6) (ack inv : Byte) (rt : Nat) : LeavesQueue s (execEndRx port ack inv rt s) := by
  refine ⟨_, rfl, ite_keeps rfl ?_⟩
  dsimp only
  split <;> simp

theorem downwardParcelSend_leaves (port : Fin 6) : LeavesQueue s (execDownwardParcelSend port s) := by
  refine ⟨_, rfl, ite_keeps rfl (ite_keeps (by simp) (ite_keeps rfl ?_))⟩
  split
  · simp
  · split <;> simp

theorem windowLost_leaves (port : Fin 6) : LeavesQueue s (execWindowLost port s) := by
  refine ⟨_, rfl, ite_keeps rfl (ite_keeps (by simp) ?_)⟩
  split <;> simp

theorem grantTimeout_leaves (port : Fin 6) (ns : Nat) : LeavesQueue s (execGrantTimeout port ns s) := by
  refine ⟨_, rfl, ite_keeps rfl ?_⟩
  split <;> simp

theorem registerWrite_leaves (side : Side) (r : RegTarget) (v : W16) : LeavesQueue s (execRegisterWrite side r v s) := by
  refine ⟨_, rfl, ?_⟩
  cases side with
  | carud => simp
  | host => cases r <;> simp

/-! An instruction of Carud answers what its step gives, whatever its body finds. -/

theorem carudStep_leaves (h : IHdr) (len : Nat) (check : Option Trap) {body : Except Trap Done}
    (hbody : Answers (fun d => d.c.s.pending = s.pending) body) : LeavesQueue s (.next (carudStep s h len check body)) :=
  ⟨_, rfl, carudStep_pending _ _ _ _ hbody⟩

theorem mov_leaves (h : IHdr) (d src : Opd) : LeavesQueue s (execMov h d src s) :=
  ⟨_, rfl, ite_keeps (carudStep_pending _ _ _ _ (movD_pending _ _ _ _)) (runUnary_pending ..)⟩

theorem trap_leaves (h : IHdr) : LeavesQueue s (execTrap h s) := by
  refine ⟨_, rfl, ite_keeps (by simp) (ite_keeps (by simp) (ite_keeps (by simp) ?_))⟩
  split <;> simp

theorem gath_leaves (h : GathHdr) (d b ix : Opd) : LeavesQueue s (execGath h d b ix s) := by
  refine ⟨_, rfl, ite_keeps (by simp) (ite_keeps (by simp) (ite_keeps (by simp) (ite_keeps (by simp) ?_)))⟩
  split
  · simp
  · have hrun := gathRun_pending s h.hdr d b ix h.cut
    split
    · simp
    · next t hok => rw [hok] at hrun; exact hrun

theorem wait_leaves (h : IHdr) : LeavesQueue s (execWait h s) := by
  refine ⟨_, rfl, ite_keeps (by simp) (carudStep_pending _ _ _ _ rfl)⟩

theorem nop_leaves (w : W32) : LeavesQueue s (execNop w s) :=
  ⟨_, rfl, ite_keeps (carudStep_pending _ _ _ _ rfl) (ite_keeps (carudStep_pending _ _ _ _ rfl) (ite_keeps (carudStep_pending _ _ _ _ rfl) rfl))⟩

theorem userInstruction_leaves (n : Fin 16) (h : IHdr) (ops : List Opd) : LeavesQueue s (execUserInstruction n h ops s) :=
  ⟨_, rfl, ite_keeps rfl (carudStep_pending _ _ _ _ (userBody_pending _ _ _ _))⟩
end

/-- Settles O60: every arm of `exec` answers a next state; each function such a state is built with keeps the queue. -/
theorem everyCommandAnswersAndLeavesTheQueue : Obligations.EveryCommandAnswersAndLeavesTheQueue := by
  intro c s
  cases c
  case elchkStep => exact elchkStep_leaves _ _
  case lampEdgeDeferred => exact lampEdgeDeferred_leaves _ _
  case passStart => exact passStart_leaves _ _
  case groupDecode => exact groupDecode_leaves _ _ _ _
  case selfStepDone => exact selfStepDone_leaves _ _
  case urgentConversion => exact urgentConversion_leaves _ _
  case auxResult => exact auxResult_leaves _
  case listenEnd => exact listenEnd_leaves _ _
  case endRx => exact endRx_leaves _ _ _ _
  case downwardParcelSend => exact downwardParcelSend_leaves _
  case windowLost => exact windowLost_leaves _
  case grantTimeout => exact grantTimeout_leaves _ _
  case registerWrite => exact registerWrite_leaves _ _ _
  case mov => exact mov_leaves _ _ _
  case trap => exact trap_leaves _
  case gath => exact gath_leaves _ _ _ _
  case wait => exact wait_leaves _
  case nop => exact nop_leaves _
  case userInstruction => exact userInstruction_leaves _ _ _
  case lea => exact carudStep_leaves _ _ _ (leaBody_pending _ _ _ _)
  case mqrd => exact carudStep_leaves _ _ _ (mqrdBody_pending _ _ _)
  case crcw => exact carudStep_leaves _ _ _ (crcwBody_pending _ _ _)
  case plog => exact carudStep_leaves _ _ _ (finishRead_pending _ _ _ _)
  case resid => exact carudStep_leaves _ _ _ (residBody_pending _ _ _ _)
  case br => exact carudStep_leaves _ _ _ (brBody_pending _ _)
  case jmp => exact carudStep_leaves _ _ _ (jmpBody_pending _ _ _)
  case call => exact carudStep_leaves _ _ _ (callBody_pending _ _)
  case calli => exact carudStep_leaves _ _ _ (calliBody_pending _ _ _)
  case ret => exact carudStep_leaves _ _ _ (retBody_pending _)
  case resume => exact carudStep_leaves _ _ _ (resumeBody_pending _)
  case loop => exact carudStep_leaves _ _ _ (loopBody_pending _ _ _)
  case lbrk => exact carudStep_leaves _ _ _ (lbrkBody_pending _ _)
  case coreResumed | senseResumed | quietHoldEnd | noisyCompletion | deadlineReached | gesture | auxdataRead | remoteTimeout
      | mqWrite | counterClearingRead | linkPortFence | helloSend | repairTestDone | dormantEntryFromHold | scrubAccess =>
    refine ⟨_, rfl, ?_⟩
    split <;> simp
  all_goals exact ⟨_, rfl, by simp⟩

end Sys2Proof.Machine

namespace Sys2Proof.Machine
open Sys2Proof

/-! ### A sequence loop boundary (R166, R172) -/

/-- R166: what a waiting value puts in force: of AUXCFG, its second row alone. -/
def loopWord (s : State) (e : Nat × W16) : W16 :=
  if e.1 = 0x10000 then (e.2 &&& ~~~(deliveryBits 0x10000)) ||| (reg s 0x10000 &&& deliveryBits 0x10000) else e.2

/-- R166: the words in force after a loop boundary. -/
def loopWords (s : State) : List (Nat × W16) := s.regs.auxWait.foldl (fun m e => sset regReset m e.1 (loopWord s e)) s.regs.force

theorem foldl_setForce (v : Nat × W16 → W16) (l : List (Nat × W16)) (s : State) :
    l.foldl (fun s e => setForce s e.1 (v e)) s
      = { s with regs := { s.regs with force := l.foldl (fun m e => sset regReset m e.1 (v e)) s.regs.force } } := by
  induction l generalizing s with
  | nil => rfl
  | cons e l ih => rw [List.foldl_cons, ih]; rfl

/-- R166, R153: a loop boundary puts the waiting words in force, marks the slots whose excitation is faulty, and sets the converter in use. -/
theorem loopForce_eq_effSet (s : State) :
    loopForce s = effSet (excMarks { s with regs := { s.regs with force := loopWords s, auxWait := [] } }) := by
  have hfold := foldl_setForce (loopWord s) s.regs.auxWait s
  unfold loopForce
  simp only [loopWord] at hfold
  simp only [hfold]
  rfl

/-! ### What the sequencer and the converters' slots touch (R149 to R175) -/

/-- `t` differs from `s` in the sequencer's own fields, the slots and requests, and the AUX words in force alone. -/
def SeqFrame (s t : State) : Prop :=
  t = { s with
    regs := { s.regs with force := t.regs.force, auxWait := t.regs.auxWait }
    aux := { s.aux with
      flight := t.aux.flight, noAdc := t.aux.noAdc, effAdc := t.aux.effAdc, entry := t.aux.entry, phase := t.aux.phase, since := t.aux.since
      reps := t.aux.reps, cal := t.aux.cal, discnt := t.aux.discnt, waiting := t.aux.waiting, first := t.aux.first } }

theorem SeqFrame.refl (s : State) : SeqFrame s s := rfl

theorem SeqFrame.trans {s t u : State} (h : SeqFrame s t) (h' : SeqFrame t u) : SeqFrame s u := by
  unfold SeqFrame at h h' ⊢
  exact h'.trans (by rw [h])

theorem SeqFrame.ite {s t u : State} (c : Prop) [Decidable c] (ht : SeqFrame s t) (hu : SeqFrame s u) : SeqFrame s (if c then t else u) := by
  split
  · exact ht
  · exact hu

theorem SeqFrame.foldl {α : Type} (f : State → α → State) (hf : ∀ s a, SeqFrame s (f s a)) (l : List α) (s : State) : SeqFrame s (l.foldl f s) :=
  List.foldlRecOn l f (.refl s) fun t ht a _ => ht.trans (hf t a)

section
variable (s : State)

theorem convDiscard_seqFrame (c : Conv) : SeqFrame s (convDiscard s c) := .ite _ rfl rfl

theorem urgentAgain_seqFrame (c : Conv) : SeqFrame s (urgentAgain s c) := rfl

theorem convLost_seqFrame (c : Conv) : SeqFrame s (convLost s c) := .ite _ (convDiscard_seqFrame s c) (urgentAgain_seqFrame s c)

theorem adcDrop_seqFrame (k : Nat) : SeqFrame s (adcDrop s k) := .foldl _ convLost_seqFrame _ s

theorem effSet_seqFrame : SeqFrame s (effSet s) := by
  unfold effSet
  split <;> rfl

theorem loopForce_seqFrame : SeqFrame s (loopForce s) := by
  rw [loopForce_eq_effSet]
  refine .trans ?_ (effSet_seqFrame _)
  rfl

theorem calBegin_seqFrame (n : Nat) : SeqFrame s (calBegin s n) := rfl

theorem seqBegin_seqFrame (n : Nat) : SeqFrame s (seqBegin s n) := rfl

theorem seqLoop_seqFrame (n : Nat) : SeqFrame s (seqLoop s n) :=
  (loopForce_seqFrame s).trans (.ite _ (.refl _) (.ite _ (calBegin_seqFrame _ n) (seqBegin_seqFrame _ n)))

theorem seqNext_seqFrame (n : Nat) : SeqFrame s (seqNext s n) := .ite _ (seqLoop_seqFrame s n) rfl

theorem slotEnd_seqFrame (n : Nat) : SeqFrame s (slotEnd s n) := .ite _ rfl (.ite _ rfl (seqNext_seqFrame s n))

theorem auxNow_seqFrame : SeqFrame s (auxNow s) := .ite _ (slotEnd_seqFrame s _) (.refl s)

theorem calEnd_seqFrame (res : BitVec 3) : SeqFrame s (calEnd s res) := by
  refine .trans ?_ (seqLoop_seqFrame _ _)
  rfl

theorem effUpdate_seqFrame : SeqFrame s (effUpdate s) := (effSet_seqFrame s).trans (.ite _ (calEnd_seqFrame _ _) (.refl _))
end

/-- R166: of the state around it, a loop boundary changes the words in force, marks of slots, and the converter in use. -/
theorem loopForce_eq (s : State) :
    loopForce s = { s with
      regs := { s.regs with force := loopWords s, auxWait := [] }
      aux := { s.aux with flight := (loopForce s).aux.flight, noAdc := (loopForce s).aux.noAdc, effAdc := (loopForce s).aux.effAdc } } := by
  rw [loopForce_eq_effSet]
  unfold effSet
  split <;> rfl

section
variable {s : State}

theorem foldl_sset_other (v : Nat × W16 → W16) (l : List (Nat × W16)) {m : List (Nat × W16)} (h : swf regReset m = true) {key : Nat}
    (hkey : ∀ e ∈ l, e.1 ≠ key) : sget regReset (l.foldl (fun m e => sset regReset m e.1 (v e)) m) key = sget regReset m key := by
  induction l generalizing m with
  | nil => rfl
  | cons e l ih =>
    rw [List.foldl_cons, ih (swf_sset e.1 (v e) h) (fun x hx => hkey x (List.mem_cons_of_mem _ hx))]
    exact sget_write_other h _ (hkey e List.mem_cons_self).symm

/-- R166: a word for which no value waits stands, and one for which a single value waits takes it. -/
theorem reg_loopForce_other (h : swf regReset s.regs.force = true) {key : Nat} (hkey : ∀ e ∈ s.regs.auxWait, e.1 ≠ key) :
    reg (loopForce s) key = reg s key := by
  rw [loopForce_eq]
  exact foldl_sset_other (loopWord s) _ h hkey

theorem reg_loopForce_one (h : swf regReset s.regs.force = true) {key : Nat} {x : W16} (hw : s.regs.auxWait = [(key, x)]) (hkey : key ≠ 0x10000) :
    reg (loopForce s) key = x := by
  rw [loopForce_eq]
  show sget regReset (loopWords s) key = x
  simp only [loopWords, hw, List.foldl_cons, List.foldl_nil, loopWord, if_neg hkey]
  exact sget_write_same h key x

theorem loopForce_force_none (hw : s.regs.auxWait = []) : (loopForce s).regs.force = s.regs.force := by
  rw [loopForce_eq]
  show loopWords s = _
  rw [loopWords, hw, List.foldl_nil]
end
end Sys2Proof.Machine

namespace Sys2Proof.Machine
open Sys2Proof

/-! ### Comparators and urgent conversions (O34; R148 to R152, R161, R162) -/

/-- R161: a first state, and one taken from inside the window, are judged by the thresholds alone. -/
theorem cmpInside_plain (s : State) (k : Nat) (level : Int) (h : bit s.aux.cmpNew k = true ∨ bit s.aux.cmp k = true) :
    cmpInside s k level = true ↔ cmpLow s k ≤ level ∧ level ≤ cmpHigh s k := by
  have hh : (bit s.aux.cmpNew k || bit s.aux.cmp k) = true := by simpa using h
  simp [cmpInside, hh]

theorem cmpInside_reentry (s : State) (k : Nat) (level : Int) (hnew : bit s.aux.cmpNew k = false) (hout : bit s.aux.cmp k = false) :
    cmpInside s k level = true ↔ cmpLow s k + cmpHys s k ≤ level ∧ level ≤ cmpHigh s k - cmpHys s k := by
  simp [cmpInside, hnew, hout]

/-- R161: comparator k has taken its input's state. -/
def cmpTaken (s : State) (k : Nat) (inside : Bool) : State :=
  { s with aux := { s.aux with cmp := putBit s.aux.cmp k inside, cmpNew := putBit s.aux.cmpNew k false } }

/-- R162: what a crossing that counts brings about. -/
def crossed (s : State) (k : Nat) : State :=
  let u := if rbit (reg s) (axKey k 5) 7 then urgentRequest s k else s
  if rbit (reg s) (axKey k 5) 6 && s.pwr.mode == .watch then wakeEvent u 4 .scan else u

/-- R161, R162: a comparator's first state, one that stands and one of the other direction are no crossings that count. -/
theorem crossing_ignored_iff (fresh was inside selected : Bool) :
    (fresh || !(was != inside) || !selected) = true ↔ ¬(fresh = false ∧ was ≠ inside ∧ selected = true) := by
  revert fresh was inside selected
  decide

/-- R161, R162: the comparator takes its input's state; a crossing that counts acts. -/
theorem exec_comparatorCrossing {s : State} {k : Fin 4} (level : Int) (hrun : auxRuns s = true) (hon : rbit (reg s) (axKey k 5) 0 = true) :
    let inside := cmpInside s k level
    let u := cmpTaken s k inside
    let counts := bit s.aux.cmpNew k = false ∧ bit s.aux.cmp k ≠ inside ∧ crossing s k inside = true
    (¬ counts → exec (.comparatorCrossing k level) s = .next u)
    ∧ (counts → exec (.comparatorCrossing k level) s = .next (crossed u k)) := by
  intro inside u counts
  have he : exec (.comparatorCrossing k level) s = .next (
      if bit s.aux.cmpNew k || !(bit s.aux.cmp k != inside) || !(crossing s k inside) then u else crossed u k) := by
    show execComparatorCrossing k level s = _
    simp only [execComparatorCrossing, hrun, hon, Bool.not_true, Bool.or_self, Bool.false_eq_true, if_false]
    rfl
  have hiff : (bit s.aux.cmpNew k || !(bit s.aux.cmp k != inside) || !(crossing s k inside)) = true ↔ ¬ counts := crossing_ignored_iff _ _ _ _
  rw [he]
  exact ⟨fun h => by rw [if_pos (hiff.mpr h)], fun h => by rw [if_neg fun h' => hiff.mp h' h]⟩

/-! Discards (R150, R151). -/

theorem convDiscard_flight (s : State) (c : Conv) : (convDiscard s c).aux.flight = s.aux.flight.erase c := by
  unfold convDiscard
  dsimp only
  split <;> rfl

theorem foldl_convDiscard_flight (l : List Conv) (s : State) : (l.foldl convDiscard s).aux.flight = l.foldl List.erase s.aux.flight := by
  induction l generalizing s with
  | nil => rfl
  | cons c l ih => rw [List.foldl_cons, List.foldl_cons, ih, convDiscard_flight]

theorem foldl_erase_cons {α : Type} [DecidableEq α] (c : α) (m l : List α) (h : c ∉ m) : m.foldl List.erase (c :: l) = c :: m.foldl List.erase l := by
  induction m generalizing l with
  | nil => rfl
  | cons x m ih =>
    obtain ⟨hx, hm⟩ : c ≠ x ∧ c ∉ m := by simpa using h
    rw [List.foldl_cons, List.erase_cons_tail (by simpa using hx), ih _ hm, List.foldl_cons]

/-- Erasing one by one the elements that a test picks leaves the others. -/
theorem foldl_erase_filter {α : Type} [DecidableEq α] (p : α → Bool) (l : List α) : (l.filter p).foldl List.erase l = l.filter (fun c => !p c) := by
  induction l with
  | nil => rfl
  | cons c l ih =>
    by_cases hc : p c = true
    · rw [List.filter_cons_of_pos hc, List.foldl_cons, List.erase_cons_head, ih, List.filter_cons_of_neg (by simp [hc])]
    · have hmem : c ∉ l.filter p := by simp [hc]
      rw [List.filter_cons_of_neg hc, foldl_erase_cons c _ l hmem, ih, List.filter_cons_of_pos (by simpa using hc)]

/-- R150: the sequenced conversions in their slot are discarded, and no other. -/
theorem slotDiscard_flight (s : State) : (slotDiscard s).aux.flight = s.aux.flight.filter (fun c => !(isSeq c && slotNow s c)) := by
  rw [slotDiscard, foldl_convDiscard_flight, foldl_erase_filter (fun c => isSeq c && slotNow s c)]

theorem convDiscard_keeps (s : State) (c : Conv) : (convDiscard s c).regs = s.regs ∧ (convDiscard s c).aux.waiting = s.aux.waiting := by
  unfold convDiscard
  dsimp only
  split <;> exact ⟨rfl, rfl⟩

theorem slotDiscard_keeps (s : State) : (slotDiscard s).regs = s.regs ∧ (slotDiscard s).aux.waiting = s.aux.waiting := by
  refine List.foldlRecOn (motive := fun t : State => t.regs = s.regs ∧ t.aux.waiting = s.aux.waiting) _ convDiscard ⟨rfl, rfl⟩ fun t ht c _ => ?_
  obtain ⟨hregs, hwaiting⟩ := convDiscard_keeps t c
  exact ⟨hregs.trans ht.1, hwaiting.trans ht.2⟩

theorem slotDiscard_seqFrame (s : State) : SeqFrame s (slotDiscard s) := .foldl _ convDiscard_seqFrame _ s

/-- R150, R152: an urgent request discards what is in its sequenced slot, and waits. -/
theorem urgentRequest_spec (s : State) (k : Nat) :
    urgentRequest s k = { s with aux := (urgentRequest s k).aux }
    ∧ (urgentRequest s k).aux.cmp = s.aux.cmp ∧ (urgentRequest s k).aux.cmpNew = s.aux.cmpNew
    ∧ (urgentRequest s k).aux.waiting = putBit s.aux.waiting k true
    ∧ (urgentRequest s k).aux.flight = s.aux.flight.filter (fun c => !(isSeq c && slotNow s c)) := by
  obtain ⟨hregs, hwaiting⟩ := slotDiscard_keeps s
  have hframe := slotDiscard_seqFrame s
  have hwaits : (urgentRequest s k).aux.waiting = putBit (slotDiscard s).aux.waiting k true := rfl
  refine ⟨?_, by rw [urgentRequest, hframe], by rw [urgentRequest, hframe], hwaits.trans (by rw [hwaiting]), slotDiscard_flight s⟩
  unfold SeqFrame at hframe
  rw [hregs] at hframe
  rw [urgentRequest, hframe]

/-- R351: a wake of the comparators in WATCH, while no change of mode runs, toward SCAN. -/
theorem wakeEvent_watch {s : State} (hm : s.pwr.mode = .watch) (hi : s.pwr.change = .idle) :
    wakeEvent s 4 .scan = { s with pwr := { s.pwr with
      wakecause := (s.pwr.wakecause &&& 0xFCFF) ||| 16 ||| 0x0100, irqstat := putBit s.pwr.irqstat 5 true
      reqMode := .scan, change := .watchToScan, mbusy := true } } := by
  simp only [wakeEvent, hi, hm, wakeNow, beginWake, raise]
  rfl

section
variable {s : State} {k : Nat}

theorem crossed_urgent (hu : rbit (reg s) (axKey k 5) 7 = true) (hm : s.pwr.mode = .scan) : crossed s k = urgentRequest s k := by
  simp [crossed, hu, hm]

theorem crossed_wakes (hu : rbit (reg s) (axKey k 5) 7 = false) (hw : rbit (reg s) (axKey k 5) 6 = true) (hm : s.pwr.mode = .watch) :
    crossed s k = wakeEvent s 4 .scan := by
  simp [crossed, hu, hw, hm]
end

/-- R157: a conversion with a reference draws no free value. -/
theorem drawRef_none {s : State} {ch : Nat} {x : AuxSample} (h : ratiometric s ch = false ∨ x.vref ≠ 0) : drawRef s ch x = s := by
  rcases h with h | h <;> simp [drawRef, h]

/-- R149, R157: a conversion with a reference takes its slot. -/
theorem takeSlot_ref {s : State} {ch : Nat} {x : AuxSample} (since : Nat) (kind : Deliver) (h : ratiometric s ch = false ∨ x.vref ≠ 0) :
    takeSlot s ch x since kind = { s with aux := { s.aux with
      tracked := upd s.aux.tracked ch (fun _ => s.beat.now + 8)
      flight := s.aux.flight ++ [{ ch := ch, raw := (convert s ch x since s.beat.free).1, clip := (convert s ch x since s.beat.free).2
                                   kind := kind, adc := s.aux.effAdc.toNat, slot := s.beat.now
                                   entry := s.aux.entry, rep := s.aux.reps + 1 }] } } := by
  simp only [takeSlot, drawRef_none h]

/-- R150, R151: a track part of the channel that an urgent conversion takes starts over. -/
theorem trackLost_eq (s : State) (ch : Nat) :
    trackLost s ch = { s with aux := { s.aux with
      discnt := if s.aux.phase = .track ∧ seqChan s = ch then satInc s.aux.discnt else s.aux.discnt
      since := if s.aux.phase = .track ∧ seqChan s = ch then s.beat.now + 8 else s.aux.since } } := by
  by_cases h : s.aux.phase = .track ∧ seqChan s = ch
  · simp [trackLost, h]
  · have hb : (s.aux.phase == .track && seqChan s == ch) = false := by simpa [← not_and] using h
    simp only [trackLost, hb, if_neg h, Bool.false_eq_true, if_false]

/-- R148, R150 to R152: an urgent conversion with a reference: it is counted, takes its slot, and a track part of its own channel starts over. -/
theorem urgentSlot_eq {v : State} {ch : Nat} {x : AuxSample} (since : Nat) (h : ratiometric v ch = false ∨ x.vref ≠ 0) :
    takeSlot (trackLost (urgentCount v ch) ch) ch x since .urgent = { v with aux := { v.aux with
      waiting := putBit v.aux.waiting ch false, first := none
      urgcnt := if v.aux.first = some ch then v.aux.urgcnt else satInc v.aux.urgcnt
      discnt := if v.aux.phase = .track ∧ seqChan v = ch then satInc v.aux.discnt else v.aux.discnt
      since := if v.aux.phase = .track ∧ seqChan v = ch then v.beat.now + 8 else v.aux.since
      tracked := upd v.aux.tracked ch (fun _ => v.beat.now + 8)
      flight := v.aux.flight ++ [{ ch := ch, raw := (convert v ch x since v.beat.free).1, clip := (convert v ch x since v.beat.free).2
                                   kind := .urgent, adc := v.aux.effAdc.toNat, slot := v.beat.now
                                   entry := v.aux.entry, rep := v.aux.reps + 1 }] } } := by
  rw [trackLost_eq]
  refine (takeSlot_ref since .urgent ?_).trans ?_
  · exact h
  · rfl

theorem exec_urgentConversion {s : State} {ch : Nat} (x : AuxSample) (hnext : nextUrgent (auxNow s) = some ch)
    (hfree : urgentFree (auxNow s) ch = true) :
    exec (.urgentConversion x.toAuxInputs x.vref) s
      = .next (takeSlot (trackLost (urgentCount (auxNow s) ch) ch) ch x ((auxNow s).beat.now - acqClocks (auxNow s) ch) .urgent) := by
  show execUrgentConversion x.toAuxInputs x.vref s = _
  simp only [execUrgentConversion, hnext, hfree, if_true]

theorem exec_urgentConversion_waits {s : State} (x : AuxSample) (h : ∀ ch, nextUrgent (auxNow s) = some ch → urgentFree (auxNow s) ch = false) :
    exec (.urgentConversion x.toAuxInputs x.vref) s = .next (auxNow s) := by
  show execUrgentConversion x.toAuxInputs x.vref s = _
  cases hnext : nextUrgent (auxNow s) with
  | none => simp only [execUrgentConversion, hnext]
  | some ch => simp only [execUrgentConversion, hnext, h ch hnext, Bool.false_eq_true, if_false]

/-- Settles O34: a comparator's states and crossings, and the urgent conversion, each by its lemma. -/
theorem crossingsRequestUrgentConversions : Obligations.CrossingsRequestUrgentConversions := by
  refine ⟨fun s k level hrun hon => ?_, fun s x => ⟨fun ch hnext hfree href => ?_, exec_urgentConversion_waits x⟩⟩
  · intro inside u counts
    obtain ⟨hstill, hcross⟩ := exec_comparatorCrossing level hrun hon
    refine ⟨cmpInside_plain s k level, cmpInside_reentry s k level, hstill, fun hc hu hm => ?_, fun hc hu hw hm hi => ?_⟩
    · have hurgent : crossed (cmpTaken s k inside) k = urgentRequest u k := crossed_urgent hu hm
      exact ⟨_, (hcross hc).trans (congrArg _ hurgent), urgentRequest_spec u k⟩
    · have hwake : crossed (cmpTaken s k inside) k = wakeEvent u 4 .scan := crossed_wakes hu hw hm
      exact (hcross hc).trans (congrArg _ (hwake.trans (wakeEvent_watch (s := u) hm hi)))
  · exact (exec_urgentConversion x hnext hfree).trans (congrArg _ (urgentSlot_eq _ href))

end Sys2Proof.Machine

namespace Sys2Proof.Machine
open Sys2Proof

/-! ### The sequencer (O35; R149 to R151, R157, R163, R164) -/

/-- R164: a DELAY that has elapsed ends in the entry's track part. -/
theorem exec_seqEntryStart (s : State) :
    let v := auxNow s
    let due := v.aux.since + entryDelay v
    (v.aux.phase = .delay → seqStopped v = false → due ≤ v.beat.now →
      exec .seqEntryStart s = .next { v with aux := { v.aux with phase := .track, since := due } })
    ∧ (v.aux.phase ≠ .delay ∨ seqStopped v = true ∨ v.beat.now < due → exec .seqEntryStart s = .next v) := by
  intro v due
  have he : exec .seqEntryStart s = .next (
      if v.aux.phase == .delay && !(seqStopped v) && decide (due ≤ v.beat.now) then { v with aux := { v.aux with phase := .track, since := due } }
      else v) := rfl
  rw [he]
  refine ⟨fun hp hs hd => ?_, fun h => ?_⟩
  · simp only [hp, hs, hd, beq_self_eq_true, Bool.not_false, decide_true, Bool.and_self, if_true]
  · have hnot : (v.aux.phase == .delay && !(seqStopped v) && decide (due ≤ v.beat.now)) = false := by
      rcases h with h | h | h
      · simp [h]
      · simp [h]
      · simp [Nat.not_le.mpr h]
    rw [if_neg (by simp [hnot])]

section
variable {s : State} (x : AuxSample)

theorem exec_seqConversion (hfree : seqFree (auxNow s) = true)
    (hres : reservedIn (auxNow s) (auxNow s).aux.effAdc.toNat ((auxNow s).beat.clk + 1) 7 = false) :
    exec (.seqConversion x.toAuxInputs x.vref) s = .next (seqSlot (auxNow s) x) := by
  show execSeqConversion x.toAuxInputs x.vref s = _
  simp only [execSeqConversion, hfree, hres, Bool.not_true, Bool.false_eq_true, if_false]

theorem exec_seqConversion_discarded (hfree : seqFree (auxNow s) = true)
    (hres : reservedIn (auxNow s) (auxNow s).aux.effAdc.toNat ((auxNow s).beat.clk + 1) 7 = true) :
    exec (.seqConversion x.toAuxInputs x.vref) s = .next (slotDiscard (seqSlot (auxNow s) x)) := by
  show execSeqConversion x.toAuxInputs x.vref s = _
  simp only [execSeqConversion, hfree, hres, Bool.not_true, Bool.false_eq_true, if_false, if_true]

theorem exec_seqConversion_waits (hfree : seqFree (auxNow s) = false) :
    exec (.seqConversion x.toAuxInputs x.vref) s = .next (auxNow s) := by
  show execSeqConversion x.toAuxInputs x.vref s = _
  simp only [execSeqConversion, hfree, Bool.not_false, if_true]
end

/-- R157: the reference of a channel's conversions, in microvolts: its excitation as sensed, or the internal one. -/
def refOf (v : State) (ch : Nat) (x : AuxSample) : Nat := if rbit (reg v) (axKey ch 0) 6 then 1200000 else x.vref

theorem refOf_ne_zero {v : State} {ch : Nat} {x : AuxSample} (h : refOf v ch x ≠ 0) : ratiometric v ch = false ∨ x.vref ≠ 0 := by
  unfold refOf at h
  split at h
  · next hr => exact .inl (by simp [ratiometric, hr])
  · exact .inr h

/-- R157: the code of a conversion with a reference. -/
theorem rawCode_ref {v : State} {ch : Nat} {x : AuxSample} (free : Nat) (h : refOf v ch x ≠ 0) :
    rawCode v ch x free = roundDiv (4096 * 2 ^ rf (reg v) (axKey ch 0) 1 3 * (x.vp - x.vn)) (refOf v ch x) := by
  have href : (if ratiometric v ch then x.vref else 1200000) = refOf v ch x := by
    unfold ratiometric refOf
    cases rbit (reg v) (axKey ch 0) 6 <;> rfl
  simp only [rawCode, href, if_neg h]

/-- R164: the conversion that a sequenced repeat begins. -/
def seqConv (v : State) (x : AuxSample) : Conv :=
  let ch := seqChan v
  { ch := ch, raw := (convert v ch x v.aux.since v.beat.free).1, clip := (convert v ch x v.aux.since v.beat.free).2, kind := seqKind v
    adc := v.aux.effAdc.toNat, slot := v.beat.now, entry := v.aux.entry, rep := v.aux.reps + 1 }

/-- R164, R172: what a sequenced repeat leaves as it takes its slot, whether or not a free value was drawn. -/
theorem seqSlot_aux (v : State) (x : AuxSample) :
    (seqSlot v x).aux = { v.aux with
      reps := v.aux.reps + 1, phase := .slot, since := v.beat.now
      tracked := upd v.aux.tracked (seqChan v) (fun _ => v.beat.now + 8), flight := v.aux.flight ++ [seqConv v x] } := by
  have hdraw : (drawRef v (seqChan v) x).aux = v.aux := by
    unfold drawRef
    split <;> rfl
  simp only [seqSlot, takeSlot, hdraw]
  rfl

theorem seqSlot_frame {v : State} {x : AuxSample} (h : ratiometric v (seqChan v) = false ∨ x.vref ≠ 0) :
    seqSlot v x = { v with aux := (seqSlot v x).aux } := by
  simp only [seqSlot, takeSlot_ref _ _ h]

theorem seqSlot_keeps (v : State) (x : AuxSample) :
    (seqSlot v x).regs = v.regs ∧ (seqSlot v x).mem = v.mem ∧ (seqSlot v x).beat.now = v.beat.now ∧ (seqSlot v x).pwr = v.pwr := by
  unfold seqSlot takeSlot drawRef
  dsimp only
  split <;> exact ⟨rfl, rfl, rfl, rfl⟩

/-- R164, R172: a sequenced repeat is no urgent one, and one of a calibration command while that runs. -/
theorem seqConv_isSeq (v : State) (x : AuxSample) : isSeq (seqConv v x) = true ∧ ((seqConv v x).kind == .cal) = v.aux.cal.active := by
  show (seqKind v != .urgent) = true ∧ (seqKind v == .cal) = v.aux.cal.active
  unfold seqKind
  split
  · next h => simp [h]
  · next h => split <;> simp [h]

/-- R151: the only sequenced conversion in its slot, begun last, is discarded: its entry goes on with the same repeat after a fresh track part. -/
theorem slotDiscard_last {s : State} {l : List Conv} {c : Conv} (hf : s.aux.flight = l ++ [c]) (hc : isSeq c = true) (hslot : slotNow s c = true)
    (hl : l.any (fun c => isSeq c && slotNow s c) = false) : slotDiscard s = convDiscard s c ∧ (l ++ [c]).erase c = l := by
  have hall : ∀ e ∈ l, ¬(isSeq e && slotNow s e) = true := by simpa using hl
  have hmem : c ∉ l := fun h => hall c h (by simp [hc, hslot])
  refine ⟨?_, by rw [List.erase_append_right _ hmem, List.erase_cons_head, List.append_nil]⟩
  rw [slotDiscard, hf, List.filter_append, List.filter_eq_nil_iff.mpr hall]
  simp [hc, hslot]

theorem convDiscard_again {s : State} {c : Conv} (hk : (c.kind == .cal) = s.aux.cal.active)
    (hgo : s.aux.cal.active = true ∨ seqStopped s = false) :
    convDiscard s c = { s with aux := { s.aux with
      discnt := satInc s.aux.discnt, flight := s.aux.flight.erase c
      phase := .track, since := c.slot + 8, entry := c.entry, reps := c.rep - 1 } } := by
  have hgoes : (s.aux.cal.active || !(seqStopped s)) = true := by simpa using hgo
  simp only [convDiscard, hk, hgoes, beq_self_eq_true, Bool.and_self, if_true]

theorem seqFree_goes {v : State} (h : seqFree v = true) : v.aux.cal.active = true ∨ seqStopped v = false := by
  simp only [seqFree, Bool.and_eq_true, Bool.or_eq_true, Bool.not_eq_true'] at h
  obtain ⟨⟨⟨⟨⟨⟨hgo, -⟩, -⟩, -⟩, -⟩, -⟩, -⟩ := h
  exact hgo.imp_left And.left

/-- R150, R151: a repeat that a reserved use falls into is discarded, and the same one tracks afresh. -/
theorem slotDiscard_seqSlot {v : State} (x : AuxSample) (hfree : seqFree v = true)
    (hnone : v.aux.flight.any (fun c => isSeq c && slotNow v c) = false) :
    slotDiscard (seqSlot v x) = { seqSlot v x with aux := { (seqSlot v x).aux with
      discnt := satInc v.aux.discnt, flight := v.aux.flight, phase := .track, since := v.beat.now + 8, entry := v.aux.entry, reps := v.aux.reps } } := by
  obtain ⟨hregs, -, hnow, hpwr⟩ := seqSlot_keeps v x
  obtain ⟨hseq, hkind⟩ := seqConv_isSeq v x
  have haux := seqSlot_aux v x
  have hslots : ∀ c, slotNow (seqSlot v x) c = slotNow v c := fun c => by simp only [slotNow, hnow]
  have hslot : slotNow (seqSlot v x) (seqConv v x) = true := by simp [slotNow, seqConv, hnow]
  have hstop : seqStopped (seqSlot v x) = seqStopped v := by
    simp only [seqStopped, auxRuns, inRun, senseRuns, scanEnded, reg, hregs, hpwr]
  obtain ⟨hlast, herase⟩ := slotDiscard_last (s := seqSlot v x) (congrArg Aux.flight haux) hseq hslot (by simpa only [hslots] using hnone)
  rw [hlast, convDiscard_again (by rw [haux]; exact hkind) (by rw [haux, hstop]; exact seqFree_goes hfree)]
  simp only [haux, herase]
  rfl

/-- R157: a conversion with a reference: its code, limited to the channel's range, and CLIP where that limits it. -/
theorem convert_ref {v : State} {ch : Nat} {x : AuxSample} (since free : Nat) (h : refOf v ch x ≠ 0) :
    let code := roundDiv (4096 * 2 ^ rf (reg v) (axKey ch 0) 1 3 * (x.vp - x.vn)) (refOf v ch x)
    convert v ch x since free = (limit (rawLo v ch) (rawHi v ch) code, sampleClip v ch x since || code != limit (rawLo v ch) (rawHi v ch) code) := by
  simp only [convert, rawCode_ref free h]

/-- R164, R172: how a repeat of an entry, or of a calibration command, is delivered. -/
theorem seqKind_eq (v : State) :
    let n := rf (reg v) (seqKey v.aux.entry 0) 8 8 + 1
    seqKind v = if v.aux.cal.active then .cal
      else if rbit (reg v) (seqKey v.aux.entry 0) 3 then .mean (decide (n ≤ v.aux.reps + 1)) n else .each := by
  intro n
  unfold seqKind entryReps
  split <;> rfl

/-- Settles O35: the end of a DELAY, the repeat that takes its slot, and the one that is discarded, each by its lemma. -/
theorem sequencerConvertsItsEntries : Obligations.SequencerConvertsItsEntries := by
  refine ⟨exec_seqEntryStart, fun s x => ?_⟩
  intro v ch a n vref lo hi code
  refine ⟨fun hfree hres href => ?taken, fun hfree hres hnone => ?discarded, exec_seqConversion_waits x⟩
  case taken =>
    rw [exec_seqConversion x hfree hres, seqSlot_frame (refOf_ne_zero href), seqSlot_aux, seqConv, convert_ref _ _ href, seqKind_eq]
    rfl
  case discarded =>
    obtain ⟨hregs, hmem, -, -⟩ := seqSlot_keeps v x
    rw [exec_seqConversion_discarded x hfree hres, slotDiscard_seqSlot x hfree hnone]
    exact ⟨_, rfl, rfl, rfl, rfl, rfl, rfl, rfl, hregs, hmem⟩

end Sys2Proof.Machine

namespace Sys2Proof.Machine
open Sys2Proof

/-! ### The check slot (O33; R146, R154 to R156) -/

/-- What judging a check slot leaves alone, but for the marks of the converters that it fences. -/
structure CheckKept (s t : State) : Prop where
  checked : t.aux.checked = s.aux.checked
  chkdev : t.aux.chkdev = s.aux.chkdev
  staged : t.regs.staged = s.regs.staged
  mem : t.mem = s.mem
  cpu : t.cpu = s.cpu
  beat : t.beat = s.beat

theorem CheckKept.refl (s : State) : CheckKept s s := ⟨rfl, rfl, rfl, rfl, rfl, rfl⟩

theorem CheckKept.trans {s t u : State} (h : CheckKept s t) (h' : CheckKept t u) : CheckKept s u :=
  ⟨h'.checked.trans h.checked, h'.chkdev.trans h.chkdev, h'.staged.trans h.staged, h'.mem.trans h.mem, h'.cpu.trans h.cpu,
    h'.beat.trans h.beat⟩

theorem SeqFrame.checkKept {s t : State} (h : SeqFrame s t) : CheckKept s t := by
  rw [h]
  exact ⟨rfl, rfl, rfl, rfl, rfl, rfl⟩

theorem SeqFrame.adcFen {s t : State} (h : SeqFrame s t) : t.aux.adcFen = s.aux.adcFen := by rw [h]

theorem SeqFrame.adcFail {s t : State} (h : SeqFrame s t) : t.aux.adcFail = s.aux.adcFail := by rw [h]

/-- R185: zones seated anew change nothing outside the zone unit. -/
theorem seatZone_frame (s : State) (z : Nat) : seatZone s z = { s with zon := (seatZone s z).zon } := by
  unfold seatZone unheld
  split
  · rfl
  · split <;> rfl

theorem foldl_seatZone_frame (l : List Nat) (s : State) : l.foldl seatZone s = { s with zon := (l.foldl seatZone s).zon } := by
  induction l generalizing s with
  | nil => rfl
  | cons z l ih =>
    rw [List.foldl_cons]
    refine (ih _).trans ?_
    rw [seatZone_frame s z]

/-- R185: FEN marks taken anew change passes and zones alone. -/
theorem refreshFen_frame (s : State) : refreshFen s = { s with car := (refreshFen s).car, zon := (refreshFen s).zon } := by
  unfold refreshFen
  exact (foldl_seatZone_frame _ _).trans (by rw [foldl_seatZone_frame])

/-- R156: the converter is marked failed and fenced, with the zones and passes that this concerns; the converter in use is still to follow. -/
def adcFenced (s : State) (k : Nat) : State :=
  refreshFen (fenceNote (refault { s with aux := { s.aux with
    adcFail := putBit s.aux.adcFail k true, adcFen := putBit s.aux.adcFen k true } } 1 k) 0x08 k (BitVec.ofInt 16 (s.aux.chkdev.getD k 0)))

theorem fenceAdc_eq (s : State) (k : Nat) : fenceAdc s k = effUpdate (adcFenced (adcDrop s k) k) := rfl

theorem adcFenced_spec (s : State) (k : Nat) :
    CheckKept s (adcFenced s k) ∧ (adcFenced s k).aux.adcFen = putBit s.aux.adcFen k true
      ∧ (adcFenced s k).aux.adcFail = putBit s.aux.adcFail k true := by
  unfold adcFenced
  rw [refreshFen_frame]
  exact ⟨⟨rfl, rfl, rfl, rfl, rfl, rfl⟩, rfl, rfl⟩

/-- R156: fencing a converter sets its two marks, and leaves the others. -/
theorem fenceAdc_spec (s : State) (k : Nat) :
    CheckKept s (fenceAdc s k) ∧ (fenceAdc s k).aux.adcFen = putBit s.aux.adcFen k true
      ∧ (fenceAdc s k).aux.adcFail = putBit s.aux.adcFail k true := by
  have hdrop := adcDrop_seqFrame s k
  obtain ⟨hkept, hfen, hfail⟩ := adcFenced_spec (adcDrop s k) k
  have heff := effUpdate_seqFrame (adcFenced (adcDrop s k) k)
  rw [fenceAdc_eq, heff.adcFen, heff.adcFail, hfen, hfail, hdrop.adcFen, hdrop.adcFail]
  exact ⟨hdrop.checkKept.trans (hkept.trans heff.checkKept), rfl, rfl⟩

/-- R156: of several converters fenced, each has its marks, and no other. -/
theorem foldl_fenceAdc_spec (l : List Nat) (s : State) :
    CheckKept s (l.foldl fenceAdc s)
    ∧ (∀ k < 4, bit (l.foldl fenceAdc s).aux.adcFen k = (decide (k ∈ l) || bit s.aux.adcFen k))
    ∧ (∀ k < 4, bit (l.foldl fenceAdc s).aux.adcFail k = (decide (k ∈ l) || bit s.aux.adcFail k)) := by
  induction l generalizing s with
  | nil => exact ⟨.refl s, fun _ _ => by simp, fun _ _ => by simp⟩
  | cons j l ih =>
    obtain ⟨hkept, hfen, hfail⟩ := fenceAdc_spec s j
    obtain ⟨hkepts, hfens, hfails⟩ := ih (fenceAdc s j)
    have hbit : ∀ (w : BitVec 4), ∀ k < 4, (decide (k ∈ l) || bit (putBit w j true) k) = (decide (k ∈ j :: l) || bit w k) := by
      intro w k hk
      by_cases hkj : k = j
      · subst hkj
        simp [bit_putBit_same w k true hk]
      · simp [bit_putBit_other w true hkj, hkj]
    rw [List.foldl_cons]
    refine ⟨hkept.trans hkepts, fun k hk => ?_, fun k hk => ?_⟩
    · rw [hfens k hk, hfen, hbit _ k hk]
    · rw [hfails k hk, hfail, hbit _ k hk]

/-- R368: a repair test that judges the check slot changes fault records alone. -/
theorem adcTest_frame (s : State) : adcTest s = { s with flt := (adcTest s).flt } := by
  unfold adcTest
  split
  · rfl
  · dsimp only
    split
    · split <;> rfl
    · rfl

/-- R155: the other converter of a pair. -/
def partner (k : Nat) : Nat := if k % 2 = 0 then k + 1 else k - 1

/-- R156: the converters that a check slot's deviations fence. -/
def deviants (s : State) (d : Nat → Int) : List Nat := [0, 1, 2, 3].filter (fun k => deviated s k (partner k) d)

theorem mem_deviants (s : State) (d : Nat → Int) (k : Fin 4) : (k : Nat) ∈ deviants s d ↔ deviated s k (partner k) d = true := by
  have hk : (k : Nat) ∈ [0, 1, 2, 3] := by
    have := k.isLt
    simp only [List.mem_cons, List.not_mem_nil]
    omega
  simp [deviants, List.mem_filter, hk]

/-- R154: the check slot as judged, before any converter is fenced. -/
def checkJudged (s : State) (d : Nat → Int) : State := { auxNow s with aux := { (auxNow s).aux with checked := true, chkdev := [0, 1, 2, 3].map d } }

theorem exec_checkSlotDone {s : State} (samples : List (List Int)) (h : checkDue s = true) :
    let d := fun k => checkDev s (samples.getD k [])
    exec (.checkSlotDone samples) s = .next (adcTest ((deviants s d).foldl fenceAdc (checkJudged s d))) := by
  show execCheckSlotDone samples s = _
  simp only [execCheckSlotDone, h, Bool.not_true, Bool.false_eq_true, if_false]
  rfl

theorem exec_checkSlotDone_idle {s : State} (samples : List (List Int)) (h : checkDue s = false) :
    exec (.checkSlotDone samples) s = .next s := by
  show execCheckSlotDone samples s = _
  simp only [execCheckSlotDone, h, Bool.not_false, if_true]

/-- R154: the expected check code, up to its trim. -/
theorem checkDev_eq (s : State) : ∃ e : Int, (e = -1 ∨ e = 0 ∨ e = 1) ∧ ∀ samples,
    checkDev s samples = (samples.map (limit 0 4095)).foldl (fun a x => a + x) 0 - 8 * (512 + 1024 * (s.beat.no.toNat % 4 : Nat) + e) := by
  refine ⟨_, ?_, fun samples => rfl⟩
  split
  · simp
  · split <;> simp

/-- R155: a converter deviates from the expected code, and from its partner unless that is fenced. -/
theorem deviated_iff (s : State) (k j : Nat) (d : Nat → Int) :
    deviated s k j d = true ↔ bit s.aux.adcFen k = false ∧ 4 * chkLim s < (d k).natAbs
      ∧ (bit s.aux.adcFen j = false → 8 * chkLim s < (d k - d j).natAbs) := by
  unfold deviated devLarge
  cases bit s.aux.adcFen k <;> cases bit s.aux.adcFen j <;> simp [and_comm]

/-- R154 to R156: what a check slot that is due leaves. -/
theorem checkSlot_judged (s : State) (d : Nat → Int) :
    let t := adcTest ((deviants s d).foldl fenceAdc (checkJudged s d))
    t.aux.checked = true ∧ t.aux.chkdev = [0, 1, 2, 3].map d
    ∧ (∀ k : Fin 4, deviated s k (partner k) d = true → bit t.aux.adcFen k = true ∧ bit t.aux.adcFail k = true)
    ∧ (∀ k : Fin 4, deviated s k (partner k) d = false → bit t.aux.adcFen k = bit s.aux.adcFen k)
    ∧ t.regs.staged = s.regs.staged ∧ t.mem = s.mem ∧ t.cpu = s.cpu ∧ t.beat = s.beat := by
  obtain ⟨hkept, hfen, hfail⟩ := foldl_fenceAdc_spec (deviants s d) (checkJudged s d)
  have hnow := (auxNow_seqFrame s).checkKept
  have hold : (checkJudged s d).aux.adcFen = s.aux.adcFen := (auxNow_seqFrame s).adcFen
  intro t
  rw [show t = _ from adcTest_frame _]
  refine ⟨hkept.checked, hkept.chkdev, fun k hk => ?_, fun k hk => ?_, hkept.staged.trans hnow.staged, hkept.mem.trans hnow.mem,
    hkept.cpu.trans hnow.cpu, hkept.beat.trans hnow.beat⟩
  · have hmem := (mem_deviants s d k).mpr hk
    exact ⟨by rw [hfen k k.isLt]; simp [hmem], by rw [hfail k k.isLt]; simp [hmem]⟩
  · have hnot : (k : Nat) ∉ deviants s d := by simp [mem_deviants, hk]
    rw [hfen k k.isLt, hold]
    simp [hnot]

/-- Settles O33: the deviations, who has deviated, and what the judgement leaves, each by its lemma. -/
theorem checkSlotsFenceDeviatedConverters : Obligations.CheckSlotsFenceDeviatedConverters := by
  intro s samples d bad lim pair
  obtain ⟨e, he, hdev⟩ := checkDev_eq s
  exact ⟨⟨e, he, fun k => hdev _⟩, fun k => deviated_iff s k (pair k) d,
    fun hdue => ⟨_, exec_checkSlotDone samples hdue, checkSlot_judged s d⟩, exec_checkSlotDone_idle samples⟩

end Sys2Proof.Machine

namespace Sys2Proof.Machine
open Sys2Proof

/-! ### System calibration (O38; R172 to R175) -/

/-- R172: the command has ended with an outcome; its loop boundary is still to come. -/
def calClosed (s : State) (res : BitVec 3) : State :=
  { s with aux := { s.aux with cal := { s.aux.cal with busy := false, active := false, res := res } } }

/-- R166, R172: `t` is `s` with the command ended and the waiting words in force; where the sequencer stands is left open. -/
def CalEnded (s t : State) (res : BitVec 3) : Prop :=
  t = { s with
    regs := { s.regs with force := loopWords s, auxWait := [] }
    aux := { s.aux with
      flight := t.aux.flight, noAdc := t.aux.noAdc, effAdc := t.aux.effAdc, entry := t.aux.entry, phase := t.aux.phase, since := t.aux.since
      reps := t.aux.reps, cal := { s.aux.cal with busy := false, active := false, res := res } } }

theorem loopForce_calEnded (s : State) (res : BitVec 3) : CalEnded s (loopForce (calClosed s res)) res := by
  unfold CalEnded
  rw [loopForce_eq]
  rfl

theorem loopForce_cal (s : State) : (loopForce s).aux.cal = s.aux.cal := by rw [loopForce_eq]

/-- R163, R172: at a loop boundary without a command the sequencer begins. -/
theorem seqLoop_idle {s : State} (n : Nat) (hactive : s.aux.cal.active = false) (hbusy : s.aux.cal.busy = false) :
    seqLoop s n = seqBegin (loopForce s) n := by
  rw [← loopForce_cal s] at hactive hbusy
  simp only [seqLoop, hactive, hbusy, Bool.false_eq_true, if_false]

/-- R172: the end of a command is a loop boundary at which the sequencer begins. -/
theorem calEnd_eq (s : State) (res : BitVec 3) : calEnd s res = seqBegin (loopForce (calClosed s res)) s.beat.now :=
  seqLoop_idle s.beat.now rfl rfl

theorem calEnd_calEnded (s : State) (res : BitVec 3) : CalEnded s (calEnd s res) res := by
  unfold CalEnded
  rw [calEnd_eq, loopForce_eq]
  rfl

theorem calAbort_run {s : State} (h : auxRuns s = true) : calAbort s = calEnd s 4 := by simp only [calAbort, h, if_true]

theorem calAbort_still {s : State} (h : auxRuns s = false) : calAbort s = loopForce (calClosed s 4) := by
  simp only [calAbort, h, Bool.false_eq_true, if_false]
  rfl

theorem calAbort_calEnded (s : State) : CalEnded s (calAbort s) 4 := by
  cases h : auxRuns s with
  | true => rw [calAbort_run h]; exact calEnd_calEnded s 4
  | false => rw [calAbort_still h]; exact loopForce_calEnded s 4

section
variable {s t : State} {res : BitVec 3}

theorem CalEnded.cal (h : CalEnded s t res) : t.aux.cal = { s.aux.cal with busy := false, active := false, res := res } := by rw [h]
theorem CalEnded.auxWait (h : CalEnded s t res) : t.regs.auxWait = [] := by rw [h]
theorem CalEnded.staged (h : CalEnded s t res) : t.regs.staged = s.regs.staged := by rw [h]
theorem CalEnded.mem (h : CalEnded s t res) : t.mem = s.mem := by rw [h]

theorem CalEnded.frame (h : CalEnded s t res) :
    t = { s with aux := t.aux, regs := { s.regs with auxWait := [], force := t.regs.force } } := by
  unfold CalEnded at h
  exact h.trans (by rw [h])

theorem CalEnded.force_none (h : CalEnded s t res) (hw : s.regs.auxWait = []) : t.regs.force = s.regs.force := by
  rw [← loopForce_force_none hw, loopForce_eq, h]

theorem CalEnded.reg_eq (h : CalEnded s t res) : reg t = reg (loopForce s) := by
  rw [h, loopForce_eq]
  rfl

theorem CalEnded.stg_eq (h : CalEnded s t res) : stg t = stg s := by
  unfold stg
  rw [h.staged]
end

/-- R172, R163: the sequencer begins at entry 0 where it runs. -/
theorem seqBegin_running {s : State} (n : Nat) (hrun : auxRuns s = true) (hon : rbit (reg s) 0x10000 4 = true) :
    (seqBegin s n).aux.phase = .delay ∧ (seqBegin s n).aux.entry = 0 ∧ (seqBegin s n).aux.reps = 0 ∧ (seqBegin s n).aux.since = n := by
  have hstop : seqStopped s = false := by simp [seqStopped, hrun, hon]
  simp [seqBegin, hstop]

/-- R172, R163: after a command that aborts where AUX work is done, the sequencer begins at entry 0. -/
theorem calAbort_begins {s : State} (hrun : auxRuns s = true) (hon : rbit (reg (calAbort s)) 0x10000 4 = true) :
    (calAbort s).aux.phase = .delay ∧ (calAbort s).aux.entry = 0 ∧ (calAbort s).aux.reps = 0 ∧ (calAbort s).aux.since = s.beat.now := by
  rw [calAbort_run hrun, calEnd_eq] at hon ⊢
  have hruns : auxRuns (loopForce (calClosed s 4)) = true := by rw [loopForce_eq]; exact hrun
  exact seqBegin_running _ hruns hon

/-- R172: a command that aborts where no AUX work is done leaves the sequencer where it stands. -/
theorem calAbort_stands {s : State} (hrun : auxRuns s = false) :
    (calAbort s).aux.phase = s.aux.phase ∧ (calAbort s).aux.entry = s.aux.entry := by
  rw [calAbort_still hrun, loopForce_eq]
  exact ⟨rfl, rfl⟩

theorem reg_calAbort_one {s : State} {key : Nat} {x : W16} (hw : s.regs.auxWait = [(key, x)]) (hkey : key ≠ 0x10000)
    (hforce : swf regReset s.regs.force = true) :
    reg (calAbort s) key = x ∧ ∀ j, j ≠ key → reg (calAbort s) j = reg s j := by
  rw [(calAbort_calEnded s).reg_eq]
  refine ⟨reg_loopForce_one hforce hw hkey, fun j hj => reg_loopForce_other hforce fun e he => ?_⟩
  rw [hw, List.mem_singleton] at he
  rw [he]
  exact hj.symm

/-- R172, R175: a command that aborts: its outcome, the words in force, and where the sequencer stands. -/
theorem calAbort_spec (s : State) :
    (calAbort s).aux.cal = { s.aux.cal with busy := false, active := false, res := 4 } ∧ (calAbort s).regs.auxWait = []
    ∧ calAbort s = { s with aux := (calAbort s).aux, regs := { s.regs with auxWait := [], force := (calAbort s).regs.force } }
    ∧ (s.regs.auxWait = [] → (calAbort s).regs.force = s.regs.force)
    ∧ (∀ key x, s.regs.auxWait = [(key, x)] → key ≠ 0x10000 → swf regReset s.regs.force = true →
        reg (calAbort s) key = x ∧ ∀ j, j ≠ key → reg (calAbort s) j = reg s j)
    ∧ (auxRuns s = true → rbit (reg (calAbort s)) 0x10000 4 = true →
        (calAbort s).aux.phase = .delay ∧ (calAbort s).aux.entry = 0 ∧ (calAbort s).aux.reps = 0 ∧ (calAbort s).aux.since = s.beat.now)
    ∧ (auxRuns s = false → (calAbort s).aux.phase = s.aux.phase ∧ (calAbort s).aux.entry = s.aux.entry) :=
  have hend := calAbort_calEnded s
  ⟨hend.cal, hend.auxWait, hend.frame, hend.force_none, fun _ _ => reg_calAbort_one, calAbort_begins, calAbort_stands⟩

/-- R172: what an AXCAL write asks for. -/
def calAsked (v : State) (w : W16) : AxCal := { v.aux.cal with active := false, ch := fld w 0 3, span := fld w 4 2 == 2 }

/-- R172: an AXCAL write of ZERO or SPAN. -/
theorem exec_axcalWrite {s : State} {w : W16} {c : Instr} (ho : spaceOpen s = true)
    (hc : (c = .axcalZero w ∧ fld w 4 2 = 1) ∨ (c = .axcalSpan w ∧ fld w 4 2 = 2)) :
    exec c s = .next (axcalWrite s w) ∧ (fld w 4 2 == 1 || fld w 4 2 == 2) = true := by
  rcases hc with ⟨rfl, hw⟩ | ⟨rfl, hw⟩
  · exact ⟨congrArg _ (cfgWrites_open s _ ho), by simp [hw]⟩
  · exact ⟨congrArg _ (cfgWrites_open s _ ho), by simp [hw]⟩

section
variable {s : State} {w : W16}

theorem axcalWrite_busy (hb : (auxNow s).aux.cal.busy = true) :
    axcalWrite s w = { auxNow s with aux := { (auxNow s).aux with cal := { (auxNow s).aux.cal with ign := true } } } := by
  simp only [axcalWrite, hb, if_true]

variable (hw : (fld w 4 2 == 1 || fld w 4 2 == 2) = true) (hb : (auxNow s).aux.cal.busy = false)
include hw hb

theorem axcalWrite_aborts (h : (auxNow s).aux.noAdc = true ∨ auxRuns (auxNow s) = false) :
    axcalWrite s w = calAbort { auxNow s with aux := { (auxNow s).aux with cal := calAsked (auxNow s) w } } := by
  have hcan : ((auxNow s).aux.noAdc || !(auxRuns (auxNow s))) = true := by simpa using h
  simp only [axcalWrite, hw, hb, hcan, Bool.false_eq_true, if_false, if_true]
  rfl

variable (hadc : (auxNow s).aux.noAdc = false) (hrun : auxRuns (auxNow s) = true)
include hadc hrun

theorem axcalWrite_waits (h : seqStopped (auxNow s) = false) :
    axcalWrite s w = { auxNow s with aux := { (auxNow s).aux with cal := { calAsked (auxNow s) w with busy := true } } } := by
  simp only [axcalWrite, hw, hb, hadc, hrun, h, Bool.not_true, Bool.or_self, Bool.false_eq_true, if_false, if_true]
  rfl

theorem axcalWrite_begins (h : seqStopped (auxNow s) = true) :
    axcalWrite s w = calBegin { auxNow s with aux := { (auxNow s).aux with cal := { calAsked (auxNow s) w with busy := true } } } (auxNow s).beat.now := by
  simp only [axcalWrite, hw, hb, hadc, hrun, h, Bool.not_true, Bool.or_self, Bool.false_eq_true, if_false, if_true]
  rfl
end

/-- R172: a command that waits begins where the sequencer stands still. -/
theorem exec_axcalStart (s : State) :
    let v := auxNow s
    (v.aux.cal.busy = true → v.aux.cal.active = false → seqStopped v = true → exec .axcalStart s = .next (calBegin v v.beat.now))
    ∧ (v.aux.cal.busy = false ∨ v.aux.cal.active = true ∨ seqStopped v = false → exec .axcalStart s = .next v) := by
  intro v
  have he : exec .axcalStart s = .next (if v.aux.cal.busy && !v.aux.cal.active && seqStopped v then calBegin v v.beat.now else v) := rfl
  rw [he]
  refine ⟨fun hb ha hs => ?_, fun h => ?_⟩
  · simp only [hb, ha, hs, Bool.not_false, Bool.and_self, if_true]
  · rcases h with h | h | h
    · simp only [h, Bool.false_and, Bool.false_eq_true, if_false]
    · simp only [h, Bool.not_true, Bool.and_false, Bool.false_and, Bool.false_eq_true, if_false]
    · simp only [h, Bool.and_false, Bool.false_eq_true, if_false]

/-- R149: the oldest result appears once ten clocks have passed since its sample. -/
theorem exec_auxResult_due {s : State} (bad : Bool) {c : Conv} {rest : List Conv} (hf : (auxNow s).aux.flight = c :: rest)
    (hdue : c.slot + 18 ≤ (auxNow s).beat.now) :
    exec (.auxResult bad) s = .next (resultIn { auxNow s with aux := { (auxNow s).aux with flight := rest } } c (c.clip || bad)) := by
  show execAuxResult bad s = _
  simp only [execAuxResult, hf, if_neg (Nat.not_lt.mpr hdue)]

theorem exec_auxResult_early {s : State} (bad : Bool) (h : ∀ c rest, (auxNow s).aux.flight = c :: rest → (auxNow s).beat.now < c.slot + 18) :
    exec (.auxResult bad) s = .next (auxNow s) := by
  show execAuxResult bad s = _
  cases hf : (auxNow s).aux.flight with
  | nil => simp only [execAuxResult, hf]
  | cons c rest => simp only [execAuxResult, hf, if_pos (h c rest hf)]

/-- R172: the result of a calibration command's conversion adds its raw code. -/
theorem resultIn_cal {s : State} {c : Conv} (clip : Bool) (hk : c.kind = .cal) :
    resultIn s c clip = { s with aux := { s.aux with
      cal := { s.aux.cal with got := s.aux.cal.got + 1, sum := s.aux.cal.sum + c.raw, clip := s.aux.cal.clip || clip } } } := by
  simp only [resultIn, hk]

/-! The coefficient that a command sets (R173 to R175). -/

theorem calCoef_staged {s : State} (w : Nat) (v : W16) (hstaged : swf regReset s.regs.staged = true) :
    stg (calCoef s w v) (axKey s.aux.cal.ch w) = v ∧ ∀ key, key ≠ axKey s.aux.cal.ch w → stg (calCoef s w v) key = stg s key :=
  ⟨sget_write_same hstaged _ v, fun _ hkey => sget_write_other hstaged v hkey⟩

theorem calCoef_force {s : State} (w : Nat) (v : W16) (hforce : swf regReset s.regs.force = true) :
    swf regReset (calCoef s w v).regs.force = true ∧ reg (calCoef s w v) (axKey s.aux.cal.ch w) = v
      ∧ ∀ e ∈ (calCoef s w v).regs.auxWait, e.1 ≠ axKey s.aux.cal.ch w := by
  refine ⟨swf_sset _ v hforce, sget_write_same hforce _ v, fun e he => ?_⟩
  obtain ⟨-, hne⟩ := List.mem_filter.mp he
  simpa using hne

/-- R173 to R175: a command that ends with a coefficient has it staged and in force, whatever waited for its word; no other word is staged. -/
theorem calEnd_calCoef {s : State} (w : Nat) (v : W16) (hforce : swf regReset s.regs.force = true) (hstaged : swf regReset s.regs.staged = true) :
    let t := calEnd (calCoef s w v) 1
    let key := axKey s.aux.cal.ch w
    t.aux.cal.busy = false ∧ t.aux.cal.res = 1 ∧ reg t key = v ∧ stg t key = v ∧ (∀ j, j ≠ key → stg t j = stg s j) ∧ t.mem = s.mem := by
  intro t key
  have hend : CalEnded (calCoef s w v) t 1 := calEnd_calEnded _ _
  obtain ⟨hswf, hreg, hwait⟩ := calCoef_force w v hforce
  rw [hend.cal, hend.reg_eq, hend.stg_eq, hend.mem, reg_loopForce_other hswf hwait]
  exact ⟨rfl, rfl, hreg, (calCoef_staged w v hstaged).1, (calCoef_staged w v hstaged).2, rfl⟩

theorem calEnd_outcome (s : State) (res : BitVec 3) :
    (calEnd s res).aux.cal.busy = false ∧ (calEnd s res).aux.cal.res = res ∧ (calEnd s res).regs.staged = s.regs.staged := by
  rw [(calEnd_calEnded s res).cal, (calEnd_calEnded s res).staged]
  exact ⟨rfl, rfl, rfl⟩

section
variable {s : State} {ch : Fin 8}

theorem exec_axcalDone (hb : s.aux.cal.busy = true) (ha : s.aux.cal.active = true) (hg : 256 ≤ s.aux.cal.got) (hch : s.aux.cal.ch = ch) :
    exec (.axcalDone ch) s = .next (if s.aux.cal.clip then calEnd s 2 else if s.aux.cal.span then calSpan s s.aux.cal.sum else calZero s s.aux.cal.sum) := by
  show execAxcalDone ch s = _
  have hin : (!(s.aux.cal.busy && s.aux.cal.active) || s.aux.cal.ch != ch || decide (s.aux.cal.got < 256)) = false := by
    simp [hb, ha, hch, Nat.not_lt.mpr hg]
  simp only [execAxcalDone, hin, Bool.false_eq_true, if_false]

theorem exec_axcalDone_other (h : s.aux.cal.busy = false ∨ s.aux.cal.active = false ∨ s.aux.cal.got < 256 ∨ s.aux.cal.ch ≠ ch) :
    exec (.axcalDone ch) s = .next s := by
  show execAxcalDone ch s = _
  have hout : (!(s.aux.cal.busy && s.aux.cal.active) || s.aux.cal.ch != ch || decide (s.aux.cal.got < 256)) = true := by
    rcases h with h | h | h | h <;> simp [h]
  simp only [execAxcalDone, hout, if_true]

theorem calZero_fits {sum : Int} (hlo : -32768 ≤ roundDiv sum 16) (hhi : roundDiv sum 16 ≤ 32767) :
    calZero s sum = calEnd (calCoef s 1 (BitVec.ofInt 16 (roundDiv sum 16))) 1 := by
  simp only [calZero, hlo, hhi, and_self, if_true]
end

/-- R174: the mean of a SPAN, less the channel's offset, and the gain that it gives. -/
def spanMean (s : State) (sum : Int) : Int := roundDiv sum 16 - (reg s (axKey s.aux.cal.ch 1)).toInt
def spanGain (s : State) (sum : Int) : Int := roundDivI (16384 * spanTarget s) (spanMean s sum)

theorem calSpan_fails {s : State} {sum : Int} (h : spanMean s sum = 0 ∨ spanGain s sum ≤ 0 ∨ 65536 ≤ spanGain s sum) :
    calSpan s sum = calEnd s 3 := if_pos h

theorem calSpan_fits {s : State} {sum : Int} (h0 : spanMean s sum ≠ 0) (hpos : 0 < spanGain s sum) (hlt : spanGain s sum < 65536) :
    calSpan s sum = calEnd (calCoef s 2 (BitVec.ofInt 16 (spanGain s sum))) 1 := by
  have hok : ¬(spanMean s sum = 0 ∨ spanGain s sum ≤ 0 ∨ 65536 ≤ spanGain s sum) := by omega
  exact if_neg hok

/-- R172, R175: the AXCAL writes. -/
theorem exec_axcal (s : State) (w : W16) (ho : spaceOpen s = true) (c : Instr)
    (hc : (c = .axcalZero w ∧ fld w 4 2 = 1) ∨ (c = .axcalSpan w ∧ fld w 4 2 = 2)) :
    let v := auxNow s
    let cal := calAsked v w
    (v.aux.cal.busy = true → exec c s = .next { v with aux := { v.aux with cal := { v.aux.cal with ign := true } } })
    ∧ (v.aux.cal.busy = false → v.aux.noAdc = true ∨ auxRuns v = false →
        exec c s = .next (calAbort { v with aux := { v.aux with cal := cal } }))
    ∧ (v.aux.cal.busy = false → v.aux.noAdc = false → auxRuns v = true → seqStopped v = false →
        exec c s = .next { v with aux := { v.aux with cal := { cal with busy := true } } })
    ∧ (v.aux.cal.busy = false → v.aux.noAdc = false → auxRuns v = true → seqStopped v = true →
        exec c s = .next (calBegin { v with aux := { v.aux with cal := { cal with busy := true } } } v.beat.now)) := by
  intro v cal
  obtain ⟨he, hw⟩ := exec_axcalWrite ho hc
  rw [he]
  exact ⟨fun hb => congrArg _ (axcalWrite_busy hb), fun hb h => congrArg _ (axcalWrite_aborts hw hb h),
    fun hb hadc hrun h => congrArg _ (axcalWrite_waits hw hb hadc hrun h), fun hb hadc hrun h => congrArg _ (axcalWrite_begins hw hb hadc hrun h)⟩

/-- Settles O38: the writes, the start, the results and the end of a command, each by the lemma about it. -/
theorem systemCalibrationSetsCoefficients : Obligations.SystemCalibrationSetsCoefficients := by
  unfold Obligations.SystemCalibrationSetsCoefficients
  refine ⟨fun s w ho => ?writes, exec_axcalStart, fun s bad c rest => ?result,
    fun s ch hb ha hg hch hforce hstaged => ?done, fun s ch => exec_axcalDone_other⟩
  case writes =>
    intro v cal c hc
    obtain ⟨hbusy, habort, hwait, hbegin⟩ := exec_axcal s w ho c hc
    refine ⟨hbusy, fun hb h => ?_, hwait, hbegin⟩
    exact ⟨_, habort hb h, calAbort_spec { v with aux := { v.aux with cal := cal } }⟩
  case result =>
    intro v hf hk hdue
    rw [exec_auxResult_due bad hf hdue, resultIn_cal _ hk, ← Bool.or_assoc]
  case done =>
    intro sum
    rw [exec_axcalDone hb ha hg hch]
    refine ⟨fun hc => ?clipped, fun hc hs hlo hhi => ?zero, fun hc hs => ?span⟩
    case clipped =>
      rw [if_pos hc]
      exact ⟨_, rfl, calEnd_outcome s 2⟩
    case zero =>
      rw [if_neg (by simp [hc]), if_neg (by simp [hs]), calZero_fits hlo hhi, ← hch]
      exact ⟨_, rfl, calEnd_calCoef 1 _ hforce hstaged⟩
    case span =>
      intro a g
      have hmean : spanMean s s.aux.cal.sum = a := by rw [spanMean, hch]
      have hgain : spanGain s s.aux.cal.sum = g := by rw [spanGain, hmean]
      rw [if_neg (by simp [hc]), if_pos hs]
      refine ⟨fun h0 hpos hlt => ?_, fun hbad => ?_⟩
      · rw [← hmean] at h0
        rw [← hgain] at hpos hlt ⊢
        rw [calSpan_fits h0 hpos hlt, ← hch]
        obtain ⟨hbusy, hres, hreg, hstg, -, -⟩ := calEnd_calCoef 2 (BitVec.ofInt 16 (spanGain s s.aux.cal.sum)) hforce hstaged
        exact ⟨_, rfl, hbusy, hres, hreg, hstg⟩
      · rw [← hmean, ← hgain] at hbad
        rw [calSpan_fails hbad]
        exact ⟨_, rfl, calEnd_outcome s 3⟩

end Sys2Proof.Machine

namespace Sys2Proof.Machine
open Sys2Proof

/-! ### Urgent evaluations (O36; R171, R188) -/

/-- `t` differs from `s` in zones, permits, ALERTs and interrupts alone: what zones trip by. -/
def TripFrame (s t : State) : Prop :=
  t = { s with
    zon := { s.zon with zones := t.zon.zones }, pwr := { s.pwr with irqstat := t.pwr.irqstat }, out := t.out, lnk := t.lnk }

theorem TripFrame.refl (s : State) : TripFrame s s := rfl

theorem TripFrame.trans {s t u : State} (h : TripFrame s t) (h' : TripFrame t u) : TripFrame s u := by
  unfold TripFrame at h h' ⊢
  exact h'.trans (by rw [h])

theorem TripFrame.foldl {α : Type} (f : State → α → State) (hf : ∀ s a, TripFrame s (f s a)) (l : List α) (s : State) :
    TripFrame s (l.foldl f s) :=
  List.foldlRecOn l f (.refl s) fun t ht a _ => ht.trans (hf t a)

theorem permitOff_tripFrame (s : State) (k : Nat) : TripFrame s (permitOff s k) := by
  obtain ⟨ps, h⟩ := permitOff_frame s k
  rw [h]
  rfl

theorem sendAlert_tripFrame (s : State) : TripFrame s (sendAlert s) := by
  unfold sendAlert
  split
  · dsimp only
    split <;> rfl
  · exact .refl s

/-- R192: the permits that a zone is mapped to turn OFF. -/
def permitsDrop (s : State) (z : Nat) : State := [0, 1, 2, 3].foldl (fun s k => if (zonesOf s k).contains z then permitOff s k else s) s

theorem permitsDrop_tripFrame (s : State) (z : Nat) : TripFrame s (permitsDrop s z) := by
  refine .foldl _ (fun t k => ?_) _ s
  split
  · exact permitOff_tripFrame t k
  · exact .refl t

/-- R188: the zone that trips, as the trip leaves it. -/
def zoneTripped (s : State) (z : Nat) (x : Zone) : Zone :=
  { x with trip := true, tripcnt := satInc x.tripcnt, tcnt := 0, rcnt := 0, clear := 0, latched := rbit (reg s) (zoneKey z 1) 15 }

theorem tripZone_untripped {s : State} {z : Nat} (h : (getZone s z).trip = false) :
    tripZone s z = sendAlert (permitsDrop (raise (setZone s z (zoneTripped s z)) 3) z) := by
  simp only [tripZone, h, Bool.false_eq_true, if_false]
  rfl

theorem tripZone_tripped {s : State} {z : Nat} (h : (getZone s z).trip = true) : tripZone s z = s := by
  simp only [tripZone, h, if_true]

theorem sendAlert_zon (s : State) : (sendAlert s).zon = s.zon := by
  unfold sendAlert
  split
  · dsimp only
    split <;> rfl
  · rfl

theorem permitOff_zon (s : State) (k : Nat) : (permitOff s k).zon = s.zon := by
  obtain ⟨ps, h⟩ := permitOff_frame s k
  rw [h]

theorem permitsDrop_zon (s : State) (z : Nat) : (permitsDrop s z).zon = s.zon := by
  refine List.foldlRecOn (motive := fun t : State => t.zon = s.zon) _ _ rfl fun t ht k _ => ?_
  split
  · exact (permitOff_zon t k).trans ht
  · exact ht

/-- R188: a zone that trips. -/
theorem tripZone_zon {s : State} {z : Nat} (h : (getZone s z).trip = false) : (tripZone s z).zon = (setZone s z (zoneTripped s z)).zon := by
  rw [tripZone_untripped h, sendAlert_zon, permitsDrop_zon, raise_zon]

theorem tripZone_tripFrame (s : State) (z : Nat) : TripFrame s (tripZone s z) := by
  cases h : (getZone s z).trip with
  | true => rw [tripZone_tripped h]; exact .refl s
  | false =>
    rw [tripZone_untripped h]
    refine .trans ?_ ((permitsDrop_tripFrame _ z).trans (sendAlert_tripFrame _))
    rfl

/-- What an evaluation reads of a zone itself, and of everything else. -/
structure SameSource (s t : State) (z : Nat) : Prop where
  frame : TripFrame s t
  base : (getZone t z).base = (getZone s z).base
  bvalid : (getZone t z).bvalid = (getZone s z).bvalid
  fen : (getZone t z).fen = (getZone s z).fen

theorem TripFrame.regs {s t : State} (h : TripFrame s t) : t.regs = s.regs := by rw [h]
theorem TripFrame.zoneLevel {s t : State} (h : TripFrame s t) (z : Nat) (b : Int) : zoneLevel t z b = zoneLevel s z b := by rw [h]; rfl
theorem TripFrame.zoneOn {s t : State} (h : TripFrame s t) (z : Nat) : zoneOn t z = zoneOn s z := by rw [h]; rfl

theorem SameSource.zoneBz {s t : State} {z : Nat} (h : SameSource s t z) : zoneBz t z = zoneBz s z := by
  unfold Machine.zoneBz
  rw [h.base]
  rw [h.frame]
  rfl

theorem SameSource.unmeasurable {s t : State} {z : Nat} (h : SameSource s t z) : unmeasurable t z = unmeasurable s z := by
  unfold Machine.unmeasurable
  rw [h.fen]
  rw [h.frame]
  rfl

theorem getZone_of_zon {s t : State} (h : t.zon = s.zon) (z : Nat) : getZone t z = getZone s z := by rw [getZone, getZone, h]

/-- R188: a zone that trips, the other zones, and how many there are. -/
theorem tripZone_zones (s : State) (z : Nat) (hz : z < s.zon.zones.length) :
    getZone (tripZone s z) z = (if (getZone s z).trip then getZone s z else zoneTripped s z (getZone s z))
    ∧ (∀ w, w ≠ z → getZone (tripZone s z) w = getZone s w) ∧ (tripZone s z).zon.zones.length = s.zon.zones.length := by
  cases h : (getZone s z).trip with
  | true =>
    rw [tripZone_tripped h]
    exact ⟨rfl, fun _ _ => rfl, rfl⟩
  | false =>
    have hzon := tripZone_zon h
    refine ⟨(getZone_of_zon hzon z).trans (getZone_setZone s z _ hz), fun w hw => ?_, by rw [hzon]; exact upd_length _ _ _⟩
    exact (getZone_of_zon hzon w).trans (getZone_setZone_other s _ hw)

/-- R188: the level that an urgent result gives a zone. -/
def urgentLevel (s : State) (z : Nat) : Int := zoneLevel s z (zoneBz s z)

/-- R188: an urgent evaluation trips the zone. -/
def urgentTrips (s : State) (z : Nat) : Prop :=
  (getZone s z).bvalid = true ∧ unmeasurable s z = false ∧ rf (reg s) (zoneKey z 2) 0 4 = 0 ∧ zoneOn s z ≤ urgentLevel s z

/-- R188: zone z has been evaluated once for an urgent result. -/
structure UrgentDone (s t : State) (z : Nat) : Prop extends SameSource s t z where
  metric : (getZone t z).metric = urgentLevel s z
  trips : urgentTrips s z → (getZone t z).trip = true

theorem SameSource.urgentLevel {s t : State} {z : Nat} (h : SameSource s t z) : urgentLevel t z = urgentLevel s z := by
  unfold Machine.urgentLevel
  rw [h.zoneBz, h.frame.zoneLevel]

theorem SameSource.urgentTrips {s t : State} {z : Nat} (h : SameSource s t z) : urgentTrips t z ↔ urgentTrips s z := by
  unfold Machine.urgentTrips
  rw [h.bvalid, h.unmeasurable, h.frame.zoneOn, h.urgentLevel, reg, h.frame.regs, ← reg]

/-- R188: the zone's metric, as an urgent result sets it. -/
def urgentMetric (s : State) (z : Nat) : State := setZone s z (fun x => { x with metric := urgentLevel s z })

theorem urgentMetric_source (s : State) (z : Nat) (hz : z < s.zon.zones.length) : SameSource s (urgentMetric s z) z := by
  have hx : getZone (urgentMetric s z) z = { getZone s z with metric := urgentLevel s z } := getZone_setZone s z _ hz
  exact ⟨rfl, by rw [hx], by rw [hx], by rw [hx]⟩

theorem evalUrgent_eq (s : State) (z : Nat) :
    let u := urgentMetric s z
    evalUrgent s z = if (getZone u z).bvalid && !(unmeasurable u z) && rf (reg s) (zoneKey z 2) 0 4 == 0 && decide (zoneOn u z ≤ urgentLevel s z)
      then tripZone u z else u := rfl

/-- R188: it can only trip the zone, with DEB = 0. -/
theorem evalUrgent_cases {s : State} {z : Nat} (hz : z < s.zon.zones.length) :
    (urgentTrips s z → evalUrgent s z = tripZone (urgentMetric s z) z) ∧ (¬ urgentTrips s z → evalUrgent s z = urgentMetric s z) := by
  have hsrc := urgentMetric_source s z hz
  have hiff : ((getZone (urgentMetric s z) z).bvalid && !(unmeasurable (urgentMetric s z) z) && rf (reg s) (zoneKey z 2) 0 4 == 0
      && decide (zoneOn (urgentMetric s z) z ≤ urgentLevel s z)) = true ↔ urgentTrips s z := by
    rw [hsrc.bvalid, hsrc.unmeasurable, hsrc.frame.zoneOn]
    simp only [urgentTrips, Bool.and_eq_true, Bool.not_eq_true', beq_iff_eq, decide_eq_true_eq, and_assoc]
  exact ⟨fun h => (evalUrgent_eq s z).trans (if_pos (hiff.mpr h)), fun h => (evalUrgent_eq s z).trans (if_neg (mt hiff.mp h))⟩

theorem urgentMetric_zones (s : State) (z : Nat) :
    (∀ w, w ≠ z → getZone (urgentMetric s z) w = getZone s w) ∧ (urgentMetric s z).zon.zones.length = s.zon.zones.length :=
  ⟨fun _ hw => getZone_setZone_other s _ hw, upd_length _ _ _⟩

theorem tripZone_source (s : State) (z : Nat) (hz : z < s.zon.zones.length) :
    SameSource s (tripZone s z) z ∧ (getZone (tripZone s z) z).metric = (getZone s z).metric ∧ (getZone (tripZone s z) z).trip = true := by
  obtain ⟨hzone, -, -⟩ := tripZone_zones s z hz
  have hframe := tripZone_tripFrame s z
  cases ht : (getZone s z).trip with
  | true =>
    rw [ht, if_pos rfl] at hzone
    exact ⟨⟨hframe, by rw [hzone], by rw [hzone], by rw [hzone]⟩, by rw [hzone], by rw [hzone, ht]⟩
  | false =>
    rw [ht, if_neg Bool.false_ne_true] at hzone
    exact ⟨⟨hframe, by rw [hzone]; rfl, by rw [hzone]; rfl, by rw [hzone]; rfl⟩, by rw [hzone]; rfl, by rw [hzone]; rfl⟩

theorem SameSource.trans {s t u : State} {z : Nat} (h : SameSource s t z) (h' : SameSource t u z) : SameSource s u z :=
  ⟨h.frame.trans h'.frame, h'.base.trans h.base, h'.bvalid.trans h.bvalid, h'.fen.trans h.fen⟩

/-- R188: one urgent evaluation of a zone; the other zones stand. -/
theorem evalUrgent_done (s : State) (z : Nat) (hz : z < s.zon.zones.length) :
    UrgentDone s (evalUrgent s z) z ∧ (∀ w, w ≠ z → getZone (evalUrgent s z) w = getZone s w)
      ∧ (evalUrgent s z).zon.zones.length = s.zon.zones.length := by
  obtain ⟨htrips, hstands⟩ := evalUrgent_cases hz
  obtain ⟨hothers, hlen⟩ := urgentMetric_zones s z
  have hsrc := urgentMetric_source s z hz
  have hmetric : (getZone (urgentMetric s z) z).metric = urgentLevel s z := congrArg Zone.metric (getZone_setZone s z _ hz)
  by_cases h : urgentTrips s z
  · have hz' : z < (urgentMetric s z).zon.zones.length := by rw [hlen]; exact hz
    obtain ⟨hsrc', hmetric', htrip⟩ := tripZone_source (urgentMetric s z) z hz'
    obtain ⟨-, hothers', hlen'⟩ := tripZone_zones (urgentMetric s z) z hz'
    rw [htrips h]
    exact ⟨⟨hsrc.trans hsrc', hmetric'.trans hmetric, fun _ => htrip⟩, fun w hw => (hothers' w hw).trans (hothers w hw), hlen'.trans hlen⟩
  · rw [hstands h]
    exact ⟨⟨hsrc, hmetric, fun h' => absurd h' h⟩, hothers, hlen⟩

theorem evalUrgent_tripFrame (s : State) (z : Nat) : TripFrame s (evalUrgent s z) := by
  rw [evalUrgent_eq]
  split
  · exact .trans (t := urgentMetric s z) rfl (tripZone_tripFrame _ z)
  · rfl

/-- A zone that stands between two states of which the second trips others has the same source in both. -/
theorem TripFrame.source {s t : State} (h : TripFrame s t) {z : Nat} (hz : getZone t z = getZone s z) : SameSource s t z :=
  ⟨h, by rw [hz], by rw [hz], by rw [hz]⟩

/-- R188: a zone that has been evaluated, and one that stands since. -/
theorem UrgentDone.later {s t u : State} {z : Nat} (h : UrgentDone s t z) (h' : TripFrame t u) (hz : getZone u z = getZone t z) : UrgentDone s u z :=
  ⟨h.toSameSource.trans (h'.source hz), by rw [hz]; exact h.metric, fun ht => by rw [hz]; exact h.trips ht⟩

theorem UrgentDone.earlier {s t u : State} {z : Nat} (h : UrgentDone t u z) (h' : TripFrame s t) (hz : getZone t z = getZone s z) : UrgentDone s u z :=
  have hsrc := h'.source hz
  ⟨hsrc.trans h.toSameSource, h.metric.trans hsrc.urgentLevel, fun ht => h.trips (hsrc.urgentTrips.mpr ht)⟩

/-- R188: every zone of a list is evaluated once, and no other zone changes. -/
theorem foldl_evalUrgent {l : List Nat} (hl : l.Nodup) (s : State) (hlen : ∀ z ∈ l, z < s.zon.zones.length) :
    (∀ z ∈ l, UrgentDone s (l.foldl evalUrgent s) z) ∧ (∀ w, w ∉ l → getZone (l.foldl evalUrgent s) w = getZone s w) := by
  induction l generalizing s with
  | nil => exact ⟨fun _ h => absurd h List.not_mem_nil, fun _ _ => rfl⟩
  | cons y l ih =>
    obtain ⟨hy, hl⟩ := List.nodup_cons.mp hl
    obtain ⟨hdone, hothers, hsame⟩ := evalUrgent_done s y (hlen y List.mem_cons_self)
    obtain ⟨hdones, hrest⟩ := ih hl (evalUrgent s y) (fun z hz => by rw [hsame]; exact hlen z (List.mem_cons_of_mem _ hz))
    have htail : TripFrame (evalUrgent s y) (l.foldl evalUrgent (evalUrgent s y)) := .foldl _ evalUrgent_tripFrame l _
    rw [List.foldl_cons]
    refine ⟨fun z hz => ?_, fun w hw => ?_⟩
    · rcases List.mem_cons.mp hz with rfl | hz
      · exact hdone.later htail (hrest _ hy)
      · have hzy : z ≠ y := fun e => hy (e ▸ hz)
        exact (hdones z hz).earlier (evalUrgent_tripFrame s y) (hothers z hzy)
    · obtain ⟨hwy, hw⟩ : w ≠ y ∧ w ∉ l := by simpa using hw
      rw [hrest w hw, hothers w hwy]

/-- R401: EXTEST holds the zone unit; otherwise zones trip. -/
theorem evalUrgentChannel_tripFrame (s : State) (ch : Nat) : TripFrame s (evalUrgentChannel s ch) := by
  unfold evalUrgentChannel unheld
  split
  · exact .refl s
  · exact .foldl _ evalUrgent_tripFrame _ s

/-- R188: an urgent result evaluates its channel's zones. -/
theorem evalUrgentChannel_done {s : State} {ch : Nat} (hx : s.jtag.ir ≠ .extest) (hlen : s.zon.zones.length = 32) (z : Fin 32)
    (hkind : zoneKind (reg s) z = 2) (hch : zoneIdx (reg s) z % 8 = ch) : UrgentDone s (evalUrgentChannel s ch) z := by
  have hmem : (z : Nat) ∈ (List.range 32).filter (fun z => zoneKind (reg s) z == 2 && zoneIdx (reg s) z % 8 == ch) := by
    simp [hkind, hch]
  rw [evalUrgentChannel, unheld_of _ _ hx]
  refine (foldl_evalUrgent (List.nodup_range.filter _) s (fun y hy => ?_)).1 z hmem
  rw [hlen]
  exact List.mem_range.mp (List.mem_filter.mp hy).1

/-! ### Auxiliary results (O36; R149, R166 to R171) -/

/-- R169 to R171: a result as delivered, before its channel's zones are evaluated. -/
def delivered (s0 : State) (ch : Nat) (v : Int) (clip urg : Bool) : State :=
  let s := deliveryForce s0
  { s with aux := { s.aux with
      data := auxFormat s ch (rbit (reg s) 0x10000 0) v, ch := BitVec.ofNat 3 ch, urg := urg, clip := clip, valid := true
      ovr := s.aux.ovr || s.aux.valid
      lostch := if s.aux.valid then s.aux.ch else s.aux.lostch
      last := upd s.aux.last ch (fun _ => BitVec.ofInt 16 v)
      lclip := putBit s.aux.lclip ch clip
      age := if clip then s.aux.age else upd s.aux.age ch (fun _ => 0) } }

theorem deliver_plain (s : State) (ch : Nat) (v : Int) (clip : Bool) : deliver s ch v clip false = delivered s ch v clip false := rfl

theorem deliver_urgent (s : State) (ch : Nat) (v : Int) (clip : Bool) :
    deliver s ch v clip true = evalUrgentChannel (delivered s ch v clip true) ch := rfl

/-- R166: with a delivered result ALIGN and CONSUMER take force, and no other word does. -/
theorem reg_deliveryForce {s : State} (h : swf regReset s.regs.force = true) :
    rbit (reg (deliveryForce s)) 0x10000 0 = bit (stg s 0x10000) 0 ∧ ∀ key, key ≠ 0x10000 → reg (deliveryForce s) key = reg s key := by
  refine ⟨?_, fun key hkey => reg_setForce_other s _ h hkey⟩
  rw [rbit, deliveryForce, reg_setForce_same s _ _ h]
  simp [bit, deliveryBits]

/-- R168: in counts, AUXDATA holds what a result in counts is delivered as. -/
theorem auxFormat_right {s : State} {ch : Nat} {y n : Int} (h : (countResult s ch y).1 = 16 * n) : auxFormat s ch false y = BitVec.ofInt 16 n :=
  congrArg (BitVec.ofInt 16) (Int.eq_of_mul_eq_mul_left (by decide) h)

/-- R167 to R171: what the delivery of a value `y`, in 1/16 counts, of channel ch leaves. -/
def ResultGiven (s t : State) (ch : Nat) (y : Int) (clip urg : Bool) : Prop :=
  t.aux.flight = s.aux.flight ∧ t.aux.valid = true ∧ t.aux.ch = BitVec.ofNat 3 ch ∧ t.aux.urg = urg ∧ t.aux.clip = clip
  ∧ t.aux.data = auxFormat s ch (bit (stg s 0x10000) 0) y
  ∧ t.aux.last.getD ch 0 = BitVec.ofInt 16 y ∧ t.aux.age.getD ch 0 = (if clip then s.aux.age.getD ch 0 else 0)
  ∧ t.aux.ovr = (s.aux.ovr || s.aux.valid) ∧ t.aux.lostch = (if s.aux.valid then s.aux.ch else s.aux.lostch)
  ∧ (∀ key, key ≠ 0x10000 → reg t key = reg s key)

theorem axKey_ne_auxcfg (ch w : Nat) : axKey ch w ≠ 0x10000 := by unfold axKey; omega
theorem zoneKey_ne_auxcfg (z : Fin 32) {w : Nat} (hw : w < 16) : zoneKey z w ≠ 0x10000 := by have := z.isLt; unfold zoneKey; omega

theorem delivered_given (s : State) {ch : Nat} (hch : ch < 8) (hlast : s.aux.last.length = 8) (hage : s.aux.age.length = 8)
    (hforce : swf regReset s.regs.force = true) (y : Int) (clip urg : Bool) : ResultGiven s (delivered s ch y clip urg) ch y clip urg := by
  obtain ⟨halign, hother⟩ := reg_deliveryForce hforce
  have hsingle : axSingle (deliveryForce s) ch = axSingle s ch := congrArg (bit · 0) (hother _ (axKey_ne_auxcfg ch 0))
  have hdata : auxFormat (deliveryForce s) ch (rbit (reg (deliveryForce s)) 0x10000 0) y = auxFormat s ch (bit (stg s 0x10000) 0) y := by
    simp only [halign, auxFormat, cntLimit, hsingle]
  refine ⟨rfl, rfl, rfl, rfl, rfl, hdata, ?_, ?_, rfl, rfl, hother⟩
  · exact upd_getD_same _ _ _ _ (show ch < s.aux.last.length by omega)
  · cases clip with
    | true => rfl
    | false => exact upd_getD_same _ _ _ _ (show ch < s.aux.age.length by omega)

theorem ResultGiven.tripFrame {s t u : State} {ch : Nat} {y : Int} {clip urg : Bool} (h : ResultGiven s t ch y clip urg) (hf : TripFrame t u) :
    ResultGiven s u ch y clip urg := by
  rw [hf]
  exact h

section
variable {s : State} {c : Conv} (clip : Bool)

/-- R167: a result in counts. -/
theorem resultIn_each {y : Int} {limited : Bool} (hk : c.kind = .each) (hr : countResult s c.ch (correct s c.ch c.raw) = (y, limited)) :
    resultIn s c clip = delivered s c.ch y (clip || limited) false := by
  simp only [resultIn, hk, hr, deliver_plain]

theorem resultIn_urgent {y : Int} {limited : Bool} (hk : c.kind = .urgent) (hr : countResult s c.ch (correct s c.ch c.raw) = (y, limited)) :
    resultIn s c clip = evalUrgentChannel (delivered s c.ch y (clip || limited) true) c.ch := by
  simp only [resultIn, hk, hr, deliver_urgent]

/-- R164, R167: a repeat of a mean. -/
theorem resultIn_repeat {n : Nat} (hk : c.kind = .mean false n) :
    resultIn s c clip = { s with aux := { s.aux with
      sum := s.aux.sum + correct s c.ch c.raw, sumClip := s.aux.sumClip || clip } } := by
  simp only [resultIn, hk, Bool.false_eq_true, if_false]

theorem resultIn_mean {n : Nat} {m y : Int} (hk : c.kind = .mean true n) (hm : roundDiv (s.aux.sum + correct s c.ch c.raw) n = m)
    (hy : fineLimit s c.ch m = y) :
    resultIn s c clip
      = delivered { s with aux := { s.aux with sum := 0, sumClip := false } } c.ch y (s.aux.sumClip || clip || m != y) false := by
  simp only [resultIn, hk, hm, hy, if_true, deliver_plain]
end

theorem delivered_frame (s : State) (ch : Nat) (y : Int) (clip urg : Bool) :
    let t := delivered s ch y clip urg
    t = { s with aux := t.aux, regs := { s.regs with force := t.regs.force } } := rfl

/-- R188: what the zones of a channel show once an urgent result has evaluated them. -/
theorem evalUrgentChannel_zone {s u : State} {ch : Nat} (hx : s.jtag.ir ≠ .extest) (hlen : s.zon.zones.length = 32) (z : Fin 32)
    (hreg : ∀ key, key ≠ 0x10000 → reg s key = reg u key) (hkind : zoneKind (reg u) z = 2) (hch : zoneIdx (reg u) z % 8 = ch) :
    let t := evalUrgentChannel s ch
    (getZone t z).metric = zoneLevel t z (zoneBz t z)
    ∧ ((getZone t z).bvalid = true → unmeasurable t z = false → rf (reg u) (zoneKey z 2) 0 4 = 0 → zoneOn t z ≤ (getZone t z).metric →
        (getZone t z).trip = true) := by
  intro t
  have hword : reg s (zoneKey z 0) = reg u (zoneKey z 0) := hreg _ (zoneKey_ne_auxcfg z (by decide))
  have hdeb : reg s (zoneKey z 2) = reg u (zoneKey z 2) := hreg _ (zoneKey_ne_auxcfg z (by decide))
  have hdone : UrgentDone s t z := evalUrgentChannel_done hx hlen z (by rw [zoneKind, rf, hword]; exact hkind) (by rw [zoneIdx, rf, hword]; exact hch)
  have hlevel : (getZone t z).metric = urgentLevel t z := hdone.metric.trans hdone.urgentLevel.symm
  refine ⟨hlevel, fun hb hu hd ho => hdone.trips (hdone.urgentTrips.mp ⟨hb, hu, ?_, hlevel ▸ ho⟩)⟩
  rw [rf, reg, hdone.frame.regs, ← reg, hdeb]
  exact hd

/-- R169, R188: an urgent result is delivered and evaluated at once. -/
theorem urgent_delivered (u : State) {ch : Nat} (hch : ch < 8) (hlast : u.aux.last.length = 8) (hage : u.aux.age.length = 8)
    (hforce : swf regReset u.regs.force = true) (y : Int) (clip : Bool) :
    let t := evalUrgentChannel (delivered u ch y clip true) ch
    ResultGiven u t ch y clip true ∧ t.mem = u.mem ∧ t.cpu = u.cpu ∧ t.beat = u.beat ∧ t.car = u.car
    ∧ (u.jtag.ir ≠ .extest → u.zon.zones.length = 32 → ∀ z : Fin 32, zoneKind (reg u) z = 2 → zoneIdx (reg u) z % 8 = ch →
        (getZone t z).metric = zoneLevel t z (zoneBz t z)
        ∧ ((getZone t z).bvalid = true → unmeasurable t z = false → rf (reg u) (zoneKey z 2) 0 4 = 0 → zoneOn t z ≤ (getZone t z).metric →
            (getZone t z).trip = true)) := by
  intro t
  have hgiven := delivered_given u hch hlast hage hforce y clip true
  have hframe : TripFrame (delivered u ch y clip true) t := evalUrgentChannel_tripFrame _ ch
  refine ⟨hgiven.tripFrame hframe, by rw [hframe]; rfl, by rw [hframe]; rfl, by rw [hframe]; rfl, by rw [hframe]; rfl, fun hx hlen z => ?_⟩
  exact evalUrgentChannel_zone (s := delivered u ch y clip true) hx hlen z (reg_deliveryForce hforce).2

/-! ### Reads of AUXDATA (O36; R169) -/

/-- R169: the side that CONSUMER names takes the result; the other side takes nothing. -/
theorem auxTake_consumer {s : State} {side : Side} (h : rbit (reg s) 0x10000 1 = (side == .carud)) :
    auxTake s side = { s with aux := { s.aux with valid := false, rch := s.aux.ch, rurg := s.aux.urg, rclip := s.aux.clip } } := by
  simp only [auxTake, h, beq_self_eq_true, if_true]

theorem auxTake_other {s : State} {side : Side} (h : rbit (reg s) 0x10000 1 ≠ (side == .carud)) : auxTake s side = s := by
  have hne : ((side == .carud) == rbit (reg s) 0x10000 1) = false := by simpa using h.symm
  simp only [auxTake, hne, Bool.false_eq_true, if_false]

theorem exec_auxdataRead_host {s : State} (ha : hostAnswers s = true) (hrun : inRun s = true) (hs : alive s.pwr.sense = true) :
    exec (.auxdataRead .host) s = .next (setHd (auxTake (settle s) .host) (settle s).aux.data) := by
  have hs' : alive (settle s).pwr.sense = true := by rw [settle_sense]; exact hs
  show Host.Outcome.next (hostReads s auxdataGet) = _
  simp only [hostReads_run s _ ha hrun, auxdataGet, hs', if_true]

theorem exec_auxdataRead_carud {s : State} (hc : coreRuns s = true) : exec (.auxdataRead .carud) s = .next (auxTake s .carud) := by
  show execAuxdataRead .carud s = _
  simp only [execAuxdataRead, hc, if_true]

/-- Settles O36: a result by its kind, with the evaluation of an urgent one, and the reads of either side. -/
theorem auxResultsDeliveredAndRead : Obligations.AuxResultsDeliveredAndRead := by
  refine ⟨fun s bad => ?results, fun s ha hrun hs => ?hostRead, fun s hc => ?carudRead⟩
  case results =>
    intro v
    refine ⟨fun c rest hf hdue hch hlast hage hforce => ?_, exec_auxResult_early bad⟩
    intro counts fine x clip1 given
    let u : State := { v with aux := { v.aux with flight := rest } }
    have hcounts : ∀ y, (countResult u c.ch y).1 = 16 * counts y := fun _ => rfl
    have hformat : ∀ left y, auxFormat u c.ch left y = BitVec.ofInt 16 (if left then y else counts y) := by
      intro left y
      cases left with
      | false => exact auxFormat_right (hcounts y)
      | true => rfl
    have given_of : ∀ {t y clip urg}, ResultGiven u t c.ch y clip urg → given t y clip urg := by
      rintro t y clip urg ⟨hflight, hvalid, hch, hurg, hclip, hdata, hrest⟩
      exact ⟨hflight, hvalid, hch, hurg, hclip, hdata.trans (hformat _ y), hrest⟩
    have hx : correct u c.ch c.raw = x := rfl
    obtain ⟨limited, hr, hclip1⟩ : ∃ limited, countResult u c.ch x = (16 * counts x, limited) ∧ clip1 = (c.clip || bad || limited) := ⟨_, rfl, rfl⟩
    rw [exec_auxResult_due bad hf hdue]
    refine ⟨fun hk => ?each, fun hk => ?urgent, fun n hk => ?repeated, fun n hk => ?mean⟩
    case each =>
      rw [hclip1]
      exact ⟨_, congrArg _ (resultIn_each (c.clip || bad) hk (hx ▸ hr)), delivered_frame u c.ch _ _ _,
        given_of (delivered_given u hch hlast hage hforce _ _ false)⟩
    case urgent =>
      have hnow := auxNow_seqFrame s
      have hjtag : v.jtag = s.jtag := by rw [show v = _ from hnow]
      have hzon : v.zon = s.zon := by rw [show v = _ from hnow]
      obtain ⟨hg, hmem, hcpu, hbeat, hcar, hzones⟩ := urgent_delivered u hch hlast hage hforce (16 * counts x) (c.clip || bad || limited)
      rw [hclip1]
      refine ⟨_, congrArg _ (resultIn_urgent (c.clip || bad) hk (hx ▸ hr)), given_of hg, hmem, hcpu, hbeat, hcar, fun hx hlen => ?_⟩
      exact hzones (by rw [← hjtag] at hx; exact hx) (by rw [← hzon] at hlen; exact hlen)
    case repeated => exact congrArg _ ((resultIn_repeat (c.clip || bad) hk).trans (by rw [hx]))
    case mean =>
      intro m
      have hm : roundDiv (u.aux.sum + correct u c.ch c.raw) n = m := by rw [hx]
      have hy : fineLimit u c.ch m = fine m := rfl
      exact ⟨_, congrArg _ (resultIn_mean (c.clip || bad) hk hm hy), delivered_frame _ c.ch _ _ _,
        given_of (delivered_given { u with aux := { u.aux with sum := 0, sumClip := false } } hch hlast hage hforce _ _ false), rfl, rfl⟩
  case hostRead =>
    intro u
    rw [exec_auxdataRead_host ha hrun hs]
    exact ⟨fun h => by rw [auxTake_consumer h]; rfl, fun h => by rw [auxTake_other (by rw [h]; decide)]; rfl⟩
  case carudRead =>
    rw [exec_auxdataRead_carud hc]
    exact ⟨fun h => by rw [auxTake_consumer h], fun h => by rw [auxTake_other (by rw [h]; decide)]⟩

end Sys2Proof.Machine

namespace Sys2Proof.Machine
open Sys2Proof

/-! ### Zones that trip (O39; R36, R188, R189, R191, R192, R196) -/

/-- R401: held or not, a state that stays is the same. -/
theorem unheld_self (s : State) : unheld s s = s := ite_self s

theorem tripWord_eq {s t : State} (h : ∀ z, (getZone t z).trip = (getZone s z).trip) : tripWord t = tripWord s := by
  simp only [tripWord, h]

theorem sendAlert_manager {s : State} (h : isWorker s = false) : sendAlert s = s := by simp [sendAlert, h]

/-- R196: an ALERT changes ports, and on a worker the beats since the latest one. -/
theorem sendAlert_frame (s : State) :
    sendAlert s = { s with
      lnk := { s.lnk with ports := (sendAlert s).lnk.ports }
      out := { s.out with sinceAlert := if isWorker s then 0 else s.out.sinceAlert } } := by
  cases h : isWorker s with
  | false => rw [sendAlert_manager h]; rfl
  | true =>
    simp only [sendAlert, h, if_true]
    split <;> rfl

theorem putAlert_mem (s : State) {k : Nat} (a : Parcel) (h : k < s.lnk.ports.length) : a ∈ (getPort (putAlert s k a) k).alerts := by
  rw [putAlert, getPort_setPort _ _ _ h]
  exact List.mem_append_right _ (List.mem_singleton_self a)

/-- R196: the ALERT of a worker waits at L0. -/
theorem sendAlert_readies {s : State} (hw : isWorker s = true) (hp : 0 < s.lnk.ports.length) :
    alertParcel s false ∈ (getPort (sendAlert s) 0).alerts := by
  have hmem := putAlert_mem s (alertParcel s false) hp
  simp only [sendAlert, hw, if_true]
  split
  · have hother : getPort (putAlert (putAlert s 0 (alertParcel s false)) 1 (alertParcel s true)) 0 = getPort (putAlert s 0 (alertParcel s false)) 0 :=
      getPort_setPort_other _ _ (by decide)
    exact hother ▸ hmem
  · exact hmem

/-- R192: permit k, to which zone z may be mapped. -/
def permitDrop (z : Nat) (s : State) (k : Nat) : State := if (zonesOf s k).contains z then permitOff s k else s

theorem permitsDrop_eq (s : State) (z : Nat) : permitsDrop s z = [0, 1, 2, 3].foldl (permitDrop z) s := rfl

theorem permitDrop_frame (z : Nat) (s : State) (k : Nat) : ∃ ps, permitDrop z s k = { s with out := { s.out with permits := ps } } := by
  unfold permitDrop
  split
  · exact permitOff_frame s k
  · exact ⟨s.out.permits, rfl⟩

theorem permitDrop_cmd (z : Nat) (s : State) (k j : Nat) :
    (getPermit (permitDrop z s k) j).cmd = (!(decide (j = k) && (zonesOf s j).contains z) && (getPermit s j).cmd) := by
  unfold permitDrop
  by_cases hj : j = k
  · subst hj
    cases h : (zonesOf s j).contains z <;> simp [permitOff_cmd]
  · split <;> simp [permitOff_cmd, hj]

theorem permitDrop_zonesOf (z : Nat) (s : State) (k j : Nat) : zonesOf (permitDrop z s k) j = zonesOf s j := by
  obtain ⟨ps, h⟩ := permitDrop_frame z s k
  rw [h]
  rfl

theorem foldl_permitDrop_frame (z : Nat) (l : List Nat) (s : State) :
    ∃ ps, l.foldl (permitDrop z) s = { s with out := { s.out with permits := ps } } := by
  induction l generalizing s with
  | nil => exact ⟨s.out.permits, rfl⟩
  | cons k l ih =>
    obtain ⟨ps, h⟩ := permitDrop_frame z s k
    obtain ⟨ps', h'⟩ := ih (permitDrop z s k)
    exact ⟨ps', by rw [List.foldl_cons, h', h]⟩

theorem foldl_permitDrop_cmd (z : Nat) (l : List Nat) (s : State) (j : Nat) :
    (getPermit (l.foldl (permitDrop z) s) j).cmd = (!(decide (j ∈ l) && (zonesOf s j).contains z) && (getPermit s j).cmd) := by
  induction l generalizing s with
  | nil => simp
  | cons k l ih =>
    rw [List.foldl_cons, ih, permitDrop_zonesOf, permitDrop_cmd]
    cases (zonesOf s j).contains z with
    | false => simp only [Bool.and_false, Bool.not_false, Bool.true_and]
    | true => simp only [Bool.and_true, List.mem_cons, Bool.decide_or, Bool.not_or, Bool.and_left_comm, Bool.and_assoc]

/-- R192: a permit to which zone z is mapped is OFF after; the command of every other permit stands. -/
theorem permitsDrop_cmd (s : State) (z : Nat) (k : Fin 4) :
    (getPermit (permitsDrop s z) k).cmd = (!((zonesOf s k).contains z) && (getPermit s k).cmd) := by
  have hk : (k : Nat) ∈ [0, 1, 2, 3] := by revert k; decide
  rw [permitsDrop_eq, foldl_permitDrop_cmd, decide_eq_true hk, Bool.true_and]

/-- R188, R191, R192, R196: `t` is `s` after the untripped zone z has tripped, and shows UNMEAS as given. -/
structure ZoneTrips (s t : State) (z : Nat) (unmeas : Bool) : Prop where
  frame : t = { s with
    zon := { s.zon with zones := t.zon.zones }
    out := { s.out with permits := t.out.permits, sinceAlert := if isWorker s then 0 else s.out.sinceAlert }
    lnk := { s.lnk with ports := t.lnk.ports }
    pwr := { s.pwr with irqstat := putBit s.pwr.irqstat 3 true } }
  zone : getZone t z = { zoneTripped s z (getZone s z) with unmeas := unmeas }
  others : ∀ w, w ≠ z → getZone t w = getZone s w
  count : t.zon.zones.length = s.zon.zones.length
  permits : ∀ k : Fin 4, (getPermit t k).cmd = (!((zonesOf s k).contains z) && (getPermit s k).cmd)
  alert : isWorker s = true → ∃ a, a ∈ (getPort t 0).alerts ∧ a.typ = tyAlert ∧ a.src = ownAddr s ∧ a.payload = be32 (tripWord t)
  silent : isWorker s = false → t.lnk = s.lnk

/-- R188, R191: the zone tripped and the interrupt raised, before permits and ALERT follow. -/
def zoneRaised (s : State) (z : Nat) : State := raise (setZone s z (zoneTripped s z)) 3

theorem tripZone_alerts {s : State} {z : Nat} (h : (getZone s z).trip = false) :
    ∃ ps, tripZone s z = sendAlert { zoneRaised s z with out := { s.out with permits := ps } } := by
  obtain ⟨ps, hdrop⟩ := foldl_permitDrop_frame z [0, 1, 2, 3] (zoneRaised s z)
  exact ⟨ps, (tripZone_untripped h).trans (congrArg sendAlert hdrop)⟩

theorem tripZone_frame {s : State} {z : Nat} (h : (getZone s z).trip = false) :
    let t := tripZone s z
    t = { s with
      zon := { s.zon with zones := t.zon.zones }
      out := { s.out with permits := t.out.permits, sinceAlert := if isWorker s then 0 else s.out.sinceAlert }
      lnk := { s.lnk with ports := t.lnk.ports }
      pwr := { s.pwr with irqstat := putBit s.pwr.irqstat 3 true } } := by
  intro t
  obtain ⟨ps, ht⟩ : ∃ ps, t = sendAlert { zoneRaised s z with out := { s.out with permits := ps } } := tripZone_alerts h
  rw [ht, sendAlert_frame]
  rfl

theorem tripZone_cmd {s : State} {z : Nat} (h : (getZone s z).trip = false) (k : Fin 4) :
    (getPermit (tripZone s z) k).cmd = (!((zonesOf s k).contains z) && (getPermit s k).cmd) := by
  rw [tripZone_untripped h, sendAlert_frame]
  exact permitsDrop_cmd (zoneRaised s z) z k

/-- R196: the ALERT of the trip shows the trip states that the trip leaves. -/
theorem tripZone_alert {s : State} {z : Nat} (h : (getZone s z).trip = false) (hp : 0 < s.lnk.ports.length) (hw : isWorker s = true) :
    let t := tripZone s z
    ∃ a, a ∈ (getPort t 0).alerts ∧ a.typ = tyAlert ∧ a.src = ownAddr s ∧ a.payload = be32 (tripWord t) := by
  intro t
  obtain ⟨ps, ht⟩ : ∃ ps, t = sendAlert { zoneRaised s z with out := { s.out with permits := ps } } := tripZone_alerts h
  rw [ht, tripWord_eq (fun w => congrArg Zone.trip (getZone_of_zon (sendAlert_zon _) w))]
  exact ⟨_, sendAlert_readies hw hp, rfl, rfl, rfl⟩

theorem tripZone_silent {s : State} {z : Nat} (h : (getZone s z).trip = false) (hw : isWorker s = false) : (tripZone s z).lnk = s.lnk := by
  obtain ⟨ps, ht⟩ := tripZone_alerts h
  rw [ht, sendAlert_manager (show isWorker { zoneRaised s z with out := { s.out with permits := ps } } = false from hw)]
  rfl

theorem tripZone_trips {s : State} {z : Nat} (hz : z < s.zon.zones.length) (hp : 0 < s.lnk.ports.length) (h : (getZone s z).trip = false) :
    ZoneTrips s (tripZone s z) z (getZone s z).unmeas := by
  obtain ⟨hzone, hothers, hcount⟩ := tripZone_zones s z hz
  rw [h, if_neg Bool.false_ne_true] at hzone
  exact ⟨tripZone_frame h, hzone, hothers, hcount, tripZone_cmd h, tripZone_alert h hp, tripZone_silent h⟩

/-- R189, R204: UNMEAS of a zone that has tripped. -/
theorem ZoneTrips.shows {s t : State} {z : Nat} {u : Bool} (h : ZoneTrips s t z u) (hz : z < s.zon.zones.length) (v : Bool) :
    ZoneTrips s (setZone t z (fun x => { x with unmeas := v })) z v := by
  have hzone := getZone_setZone t z (fun x => { x with unmeas := v }) (h.count ▸ hz)
  have hothers : ∀ w, w ≠ z → getZone (setZone t z (fun x => { x with unmeas := v })) w = getZone t w := fun w hw => getZone_setZone_other t _ hw
  have htrips : ∀ w, (getZone (setZone t z (fun x => { x with unmeas := v })) w).trip = (getZone t w).trip := by
    intro w
    by_cases hw : w = z
    · rw [hw, hzone]
    · rw [hothers w hw]
  have hframe := congrArg (fun r => setZone r z (fun x => { x with unmeas := v })) h.frame
  refine ⟨hframe, by rw [hzone, h.zone], fun w hw => (hothers w hw).trans (h.others w hw), (upd_length _ _ _).trans h.count, h.permits, ?_, h.silent⟩
  rw [tripWord_eq htrips]
  exact h.alert

/-! ### The rows of a trip (O39; R36, R188, R189, R204) -/

section
variable {s : State} {z : Fin 32}

theorem exec_zoneTrip_counted (hx : s.jtag.ir ≠ .extest) (hc : rf (reg s) (zoneKey z 2) 0 4 + 1 ≤ (getZone s z).tcnt) :
    exec (.zoneTrip z) s = .next (tripZone s z) := by
  show execZoneTrip z s = _
  rw [execZoneTrip, unheld_of _ _ hx, decide_eq_true hc, if_pos rfl]

theorem exec_zoneTrip_r36 (hx : s.jtag.ir ≠ .extest) (hc : ¬ rf (reg s) (zoneKey z 2) 0 4 + 1 ≤ (getZone s z).tcnt) (hr : r36 s z = true) :
    exec (.zoneTrip z) s = .next (setZone (tripZone s z) z (fun x => { x with unmeas := decide (zoneKind (reg s) z ≠ 0) })) := by
  have hu : zoneUnmeas s z = decide (zoneKind (reg s) z ≠ 0) := Bool.eq_iff_iff.mpr (by simp only [zoneUnmeas, bne_iff_ne, decide_eq_true_eq])
  show execZoneTrip z s = _
  rw [execZoneTrip, unheld_of _ _ hx, decide_eq_false hc, if_neg Bool.false_ne_true, if_pos hr, hu]

theorem exec_zoneTrip_stands (hc : ¬ rf (reg s) (zoneKey z 2) 0 4 + 1 ≤ (getZone s z).tcnt) (hr : r36 s z = false) :
    exec (.zoneTrip z) s = .next s := by
  show execZoneTrip z s = _
  rw [execZoneTrip, decide_eq_false hc, hr, if_neg Bool.false_ne_true, if_neg Bool.false_ne_true, unheld_self]

theorem exec_zoneUnmeasTrip_held (hx : s.jtag.ir ≠ .extest) (hh : rf (reg s) (zoneKey z 1) 13 2 + 1 ≤ (getZone s z).hcnt) :
    exec (.zoneUnmeasTrip z) s = .next (setZone (tripZone s z) z (fun x => { x with unmeas := true })) := by
  show execZoneUnmeasTrip z s = _
  rw [execZoneUnmeasTrip, unheld_of _ _ hx, heldOut, decide_eq_true hh, if_pos rfl]

theorem exec_zoneUnmeasTrip_stands (hh : ¬ rf (reg s) (zoneKey z 1) 13 2 + 1 ≤ (getZone s z).hcnt) : exec (.zoneUnmeasTrip z) s = .next s := by
  show execZoneUnmeasTrip z s = _
  rw [execZoneUnmeasTrip, heldOut, decide_eq_false hh, if_neg Bool.false_ne_true, unheld_self]

/-- R36, R188, R189: each row that trips an untripped zone, and the UNMEAS that it shows. -/
theorem exec_trips (hx : s.jtag.ir ≠ .extest) (hlen : s.zon.zones.length = 32) (hp : s.lnk.ports.length = 6) (h : (getZone s z).trip = false)
    {c : Instr}
    (hc : (c = .zoneTrip z ∧ (rf (reg s) (zoneKey z 2) 0 4 + 1 ≤ (getZone s z).tcnt ∨ r36 s z = true))
      ∨ (c = .zoneUnmeasTrip z ∧ rf (reg s) (zoneKey z 1) 13 2 + 1 ≤ (getZone s z).hcnt)) :
    ∃ t, exec c s = .next t ∧ ZoneTrips s t z (if c = .zoneUnmeasTrip z then true
      else if rf (reg s) (zoneKey z 2) 0 4 + 1 ≤ (getZone s z).tcnt then (getZone s z).unmeas else decide (zoneKind (reg s) z ≠ 0)) := by
  have hz : (z : Nat) < s.zon.zones.length := by rw [hlen]; exact z.isLt
  have htrip := tripZone_trips hz (by rw [hp]; decide) h
  rcases hc with ⟨rfl, hwhy⟩ | ⟨rfl, hheld⟩
  · rw [if_neg (by simp)]
    by_cases hcount : rf (reg s) (zoneKey z 2) 0 4 + 1 ≤ (getZone s z).tcnt
    · rw [if_pos hcount]
      exact ⟨_, exec_zoneTrip_counted hx hcount, htrip⟩
    · rw [if_neg hcount]
      exact ⟨_, exec_zoneTrip_r36 hx hcount (hwhy.resolve_left hcount), htrip.shows hz _⟩
  · rw [if_pos rfl]
    exact ⟨_, exec_zoneUnmeasTrip_held hx hheld, htrip.shows hz _⟩
end

/-! ### Zones that release (O39; R188, R192, R196) -/

/-- R188, R192: the zone that releases, as the release leaves it. -/
def zoneReleased (x : Zone) : Zone :=
  { x with trip := false, tcnt := 0, rcnt := 0, latched := false, unmeas := false, clear := b2n x.seen }

theorem releaseZone_tripped {s : State} {z : Nat} (h : (getZone s z).trip = true) : releaseZone s z = sendAlert (setZone s z zoneReleased) := by
  rw [releaseZone, if_pos h]
  rfl

theorem releaseZone_frame {s : State} {z : Nat} (h : (getZone s z).trip = true) :
    let t := releaseZone s z
    t = { s with zon := { s.zon with zones := t.zon.zones }, lnk := { s.lnk with ports := t.lnk.ports }
                 out := { s.out with sinceAlert := if isWorker s then 0 else s.out.sinceAlert } } := by
  intro t
  have ht : t = sendAlert (setZone s z zoneReleased) := releaseZone_tripped h
  rw [ht, sendAlert_frame]
  rfl

theorem releaseZone_zon {s : State} {z : Nat} (h : (getZone s z).trip = true) : (releaseZone s z).zon = (setZone s z zoneReleased).zon := by
  rw [releaseZone_tripped h, sendAlert_zon]

/-- R188: a zone that releases, and the other zones. -/
theorem releaseZone_zones {s : State} {z : Nat} (h : (getZone s z).trip = true) (hz : z < s.zon.zones.length) :
    getZone (releaseZone s z) z = zoneReleased (getZone s z) ∧ ∀ w, w ≠ z → getZone (releaseZone s z) w = getZone s w :=
  ⟨(getZone_of_zon (releaseZone_zon h) z).trans (getZone_setZone s z _ hz),
    fun w hw => (getZone_of_zon (releaseZone_zon h) w).trans (getZone_setZone_other s _ hw)⟩

section
variable {s : State} {z : Fin 32}

theorem exec_zoneRelease_releases (hx : s.jtag.ir ≠ .extest) (hc : rf (reg s) (zoneKey z 2) 4 8 + 1 ≤ (getZone s z).rcnt)
    (hr : r36 s z = false) (hl : rbit (reg s) (zoneKey z 1) 15 = false) : exec (.zoneRelease z) s = .next (releaseZone s z) := by
  show execZoneRelease z s = _
  rw [execZoneRelease, unheld_of _ _ hx, decide_eq_true hc, hr, hl]
  rfl

theorem exec_zoneRelease_stands
    (h : (getZone s z).rcnt < rf (reg s) (zoneKey z 2) 4 8 + 1 ∨ r36 s z = true ∨ rbit (reg s) (zoneKey z 1) 15 = true) :
    exec (.zoneRelease z) s = .next s := by
  have hnot : ¬ (decide (rf (reg s) (zoneKey z 2) 4 8 + 1 ≤ (getZone s z).rcnt) && !(r36 s z) && !(rbit (reg s) (zoneKey z 1) 15)) = true := by
    simp only [Bool.and_eq_true, decide_eq_true_eq, Bool.not_eq_true']
    rintro ⟨⟨hc, hr⟩, hl⟩
    rcases h with h | h | h
    · omega
    · rw [hr] at h; cases h
    · rw [hl] at h; cases h
  show execZoneRelease z s = _
  rw [execZoneRelease, if_neg hnot, unheld_self]
end

/-! ### Zones that ZCLR releases (O39; R188) -/

/-- R188: what a release of zones may change: zones, and the ALERTs with the beats since the latest one. -/
def ReleaseFrame (s t : State) : Prop :=
  t = { s with zon := { s.zon with zones := t.zon.zones }, lnk := { s.lnk with ports := t.lnk.ports }
               out := { s.out with sinceAlert := t.out.sinceAlert } }

theorem ReleaseFrame.refl (s : State) : ReleaseFrame s s := rfl

theorem ReleaseFrame.trans {s t u : State} (h : ReleaseFrame s t) (h' : ReleaseFrame t u) : ReleaseFrame s u := by
  unfold ReleaseFrame at h h' ⊢
  exact h'.trans (by rw [h])

theorem ReleaseFrame.tripFrame {s t : State} (h : ReleaseFrame s t) : TripFrame s t := by
  unfold ReleaseFrame at h
  rw [h]
  rfl

theorem releaseZone_releaseFrame {s : State} {z : Nat} (h : (getZone s z).trip = true) : ReleaseFrame s (releaseZone s z) := by
  have hframe := releaseZone_frame h
  unfold ReleaseFrame
  rw [hframe]

/-- R188: a write of ZCLR for zone z would release it. -/
def zclears (s : State) (z : Nat) : Bool :=
  (getZone s z).trip && rbit (reg s) (zoneKey z 1) 15 && !(r36 s z) && decide ((getZone s z).metric ≤ zoneOff s z)

theorem zclears_iff (s : State) (z : Nat) :
    zclears s z = true ↔ (getZone s z).trip = true ∧ rbit (reg s) (zoneKey z 1) 15 = true ∧ r36 s z = false ∧ (getZone s z).metric ≤ zoneOff s z := by
  simp [zclears, and_assoc]

/-- R188: whether a zone would release depends on the zone itself, and not on the trips of others. -/
theorem TripFrame.zclears {s t : State} (h : TripFrame s t) {z : Nat} (hz : getZone t z = getZone s z) : zclears t z = zclears s z := by
  have hsrc := h.source hz
  have hoff : zoneOff t z = zoneOff s z := by rw [h]; rfl
  have hreg : reg t = reg s := congrArg (fun r => reg { s with regs := r }) h.regs
  unfold Machine.zclears r36 heldOut
  rw [hsrc.unmeasurable, hoff, hreg, hz]

theorem zclrZone_releases {s : State} {z : Nat} (h : zclears s z = true) : zclrZone s z = releaseZone s z := if_pos h
theorem zclrZone_stands {s : State} {z : Nat} (h : zclears s z = false) : zclrZone s z = s := if_neg (by rw [← zclears, h]; decide)

theorem zclrZone_releaseFrame (s : State) (z : Nat) : ReleaseFrame s (zclrZone s z) := by
  cases h : zclears s z with
  | true => rw [zclrZone_releases h]; exact releaseZone_releaseFrame ((zclears_iff s z).mp h).1
  | false => rw [zclrZone_stands h]; exact .refl s

theorem zclrZone_length (s : State) (z : Nat) : (zclrZone s z).zon.zones.length = s.zon.zones.length := by
  cases h : zclears s z with
  | true =>
    rw [zclrZone_releases h, releaseZone_zon ((zclears_iff s z).mp h).1]
    exact upd_length _ _ _
  | false => rw [zclrZone_stands h]

/-- R188: a zone after the write of its bit of ZCLR; the other zones stand. -/
theorem zclrZone_zones {s : State} {z : Nat} (hz : z < s.zon.zones.length) :
    getZone (zclrZone s z) z = (if zclears s z then zoneReleased (getZone s z) else getZone s z)
    ∧ ∀ w, w ≠ z → getZone (zclrZone s z) w = getZone s w := by
  cases h : zclears s z with
  | true => rw [zclrZone_releases h]; exact releaseZone_zones ((zclears_iff s z).mp h).1 hz
  | false => rw [zclrZone_stands h]; exact ⟨rfl, fun _ _ => rfl⟩

theorem foldl_zclrZone_releaseFrame (l : List Nat) (s : State) : ReleaseFrame s (l.foldl zclrZone s) :=
  List.foldlRecOn l zclrZone (.refl s) fun t ht z _ => ht.trans (zclrZone_releaseFrame t z)

/-- R188: every zone of a list is released once where it would release by itself, and no other zone changes. -/
theorem foldl_zclrZone_zone {l : List Nat} (hl : l.Nodup) (s : State) (hlen : ∀ z ∈ l, z < s.zon.zones.length) (w : Nat) :
    getZone (l.foldl zclrZone s) w = if w ∈ l ∧ zclears s w = true then zoneReleased (getZone s w) else getZone s w := by
  induction l generalizing s with
  | nil => simp
  | cons z l ih =>
    obtain ⟨hzl, hl⟩ := List.nodup_cons.mp hl
    obtain ⟨hzone, hothers⟩ := zclrZone_zones (hlen z List.mem_cons_self)
    rw [List.foldl_cons, ih hl (zclrZone s z) (fun y hy => by rw [zclrZone_length]; exact hlen y (List.mem_cons_of_mem _ hy))]
    by_cases hw : w = z
    · subst hw
      rw [hzone]
      simp [hzl]
    · have hclears := (zclrZone_releaseFrame s z).tripFrame.zclears (hothers w hw)
      rw [hothers w hw, hclears]
      simp [hw]

/-- R204: the zones that a write of ZCLR0 or ZCLR1 names. -/
def zclrNamed (hi : Bool) (w : W16) : List Nat := ((List.range 16).filter (fun j => bit w j)).map (16 * b2n hi + ·)

theorem zclrNamed_nodup (hi : Bool) (w : W16) : (zclrNamed hi w).Nodup :=
  List.pairwise_map.mpr ((List.nodup_range.filter _).imp fun hne h => hne (Nat.add_left_cancel h))

theorem mem_zclrNamed (hi : Bool) (w : W16) (z : Nat) : z ∈ zclrNamed hi w ↔ z / 16 = b2n hi ∧ bit w (z % 16) = true := by
  simp only [zclrNamed, List.mem_map, List.mem_filter, List.mem_range]
  constructor
  · rintro ⟨j, ⟨hj, hb⟩, rfl⟩
    rw [show (16 * b2n hi + j) % 16 = j by omega]
    exact ⟨by omega, hb⟩
  · rintro ⟨hz, hb⟩
    exact ⟨z % 16, ⟨Nat.mod_lt _ (by decide), hb⟩, by omega⟩

theorem zclrNamed_lt {hi : Bool} {w : W16} {z : Nat} (h : z ∈ zclrNamed hi w) : z < 32 := by
  have hz := ((mem_zclrNamed hi w z).mp h).1
  have hb : b2n hi ≤ 1 := by cases hi <;> decide
  omega

theorem exec_zclr {s : State} (hi : Bool) (w : W16) (hx : s.jtag.ir ≠ .extest) (ho : spaceOpen s = true) :
    exec (.zclr hi w) s = .next ((zclrNamed hi w).foldl zclrZone s) := by
  show execZclr hi w s = _
  rw [execZclr, unheld_of _ _ hx, cfgWrites_open _ _ ho, zclrWrite, unheld_of _ _ hx, zclrNamed, List.foldl_map]

/-- Settles O39: the rows that trip by `exec_trips`, the release by its count, and ZCLR by the zones that it names. -/
theorem zonesTripAndRelease : Obligations.ZonesTripAndRelease := by
  unfold Obligations.ZonesTripAndRelease
  refine ⟨fun s z c hx hlen _ hp h hc => ?trips, fun s z hc => ⟨exec_zoneTrip_stands (Nat.not_le.mpr hc), fun hx ht hr => ?shows⟩,
    fun s z hh => exec_zoneUnmeasTrip_stands (Nat.not_le.mpr hh), fun s z hx hlen ht => ⟨fun hc hr hl => ?releases, exec_zoneRelease_stands⟩,
    fun s hi w hx ho hlen => ?zclr⟩
  case trips =>
    obtain ⟨t, hexec, htrips⟩ := exec_trips hx hlen hp h hc
    refine ⟨t, hexec, htrips.frame, htrips.zone, fun y hy => htrips.others y (Fin.val_ne_of_ne hy), fun k hk => ?_, fun k hk => ?_,
      htrips.alert, htrips.silent⟩
    · rw [htrips.permits, List.contains_iff_mem.mpr hk]; rfl
    · rw [htrips.permits, Bool.eq_false_iff.mpr (mt List.contains_iff_mem.mp hk)]; rfl
  case shows => rw [exec_zoneTrip_r36 hx (Nat.not_le.mpr hc) hr, tripZone_tripped ht]
  case releases =>
    obtain ⟨hzone, hothers⟩ := releaseZone_zones ht (by rw [hlen]; exact z.isLt)
    exact ⟨_, exec_zoneRelease_releases hx hc hr hl, releaseZone_frame ht, hzone, fun y hy => hothers y (Fin.val_ne_of_ne hy)⟩
  case zclr =>
    refine ⟨_, exec_zclr hi w hx ho, foldl_zclrZone_releaseFrame _ s, fun z => ?_⟩
    intro clears
    have hiff : clears ↔ (z : Nat) ∈ zclrNamed hi w ∧ zclears s z = true := by
      rw [mem_zclrNamed, zclears_iff, and_assoc]
    rw [foldl_zclrZone_zone (zclrNamed_nodup hi w) s (fun y hy => by rw [hlen]; exact zclrNamed_lt hy)]
    exact ⟨fun h => by rw [if_pos (hiff.mp h)]; exact ⟨rfl, rfl⟩, fun h => if_neg (mt hiff.mpr h)⟩

end Sys2Proof.Machine
